-- ==== Sys2Proof/Word.lean ====
section
/-! DEFINITION. The word types of the block's ports (30_encoding.md rules R90-R94): the four formats have one
fixed length each (R100), and a decoder tells the format by the port a word arrives on. -/

namespace Sys2Proof

/-- A host register value, a command byte, a frame byte or a pin-fault code: 8 bits (R60, R92, R74, R94). -/
abbrev Byte := BitVec 8

/-- One HOSTBUS word, 13 bits: W, A, D from the top (R91). -/
abbrev BusWord := BitVec 13

/-- One GTAREQ word, 19 bits: OP, ARG from the top (R93). -/
abbrev ReqWord := BitVec 19

/-- One GTARSP word, 11 bits: DONE, ERR, VAL, CODE from the top (R94). -/
abbrev RspWord := BitVec 11

/-- A word together with the port it stands on, which is what tells its format (R100). -/
inductive PortWord where
  /-- a word on the host bus ports -/
  | hostBus (w : BusWord)
  /-- a word on the engine-to-GTA request port -/
  | gtaReq (w : ReqWord)
deriving DecidableEq, Repr

end Sys2Proof
end

