-- ==== Sys2Proof/Syntax.lean ====
section
/-! DEFINITION. The instructions: one constructor per row of spec/opcode_table.json, in the table's order
(30_encoding.md rules R96, R97). An instruction is one HOSTBUS access or one GTAREQ primitive (R90). Bits the
encoding leaves free are carried as operands, so that no bit of a word is lost. -/

namespace Sys2Proof

inductive Instr where
  /-- NOP (R246); `fam` is the don't-care bit 1 of the command byte -/
  | nop (fam : Bool)
  /-- READ_DHT11 (R242) -/
  | readDht11
  /-- READ_DHT22 (R243) -/
  | readDht22
  /-- RD STATUS (R247); `d` is the ignored data field of a read (R91), here and in the reads below -/
  | rdStatus (d : Byte)
  /-- RD DATA0 (R248) -/
  | rdData0 (d : Byte)
  /-- RD DATA1 (R249) -/
  | rdData1 (d : Byte)
  /-- RD DATA2 (R250) -/
  | rdData2 (d : Byte)
  /-- RD DATA3 (R251) -/
  | rdData3 (d : Byte)
  /-- RD PINERR (R252) -/
  | rdPinerr (d : Byte)
  /-- RD STATE (R253) -/
  | rdState (d : Byte)
  /-- RD POS (R254) -/
  | rdPos (d : Byte)
  /-- RD BITCNT (R255) -/
  | rdBitcnt (d : Byte)
  /-- `SET_LOW` (R124) -/
  | setLow
  /-- `SET_HIGH` (R125) -/
  | setHigh
  /-- `IS_LOW` (R126) -/
  | isLow
  /-- `IS_HIGH` (R127) -/
  | isHigh
  /-- `DELAY_US n` (R128) -/
  | delayUs (n : BitVec 16)
  /-- `DELAY_MS n` (R129) -/
  | delayMs (n : BitVec 16)
deriving DecidableEq, Repr

end Sys2Proof
end

