-- ==== Sys2Proof/WellFormed.lean ====
section
/-! DEFINITION. What the encoding allows of an instruction's operands. The one limit of the tables is a delay's
length, 1..65535 (30_encoding.md rules R93, R97; a length of 0 is reserved, R98 and R133). -/

namespace Sys2Proof

/-- The operand limits of R96 and R97. -/
def Instr.wellFormed : Instr → Bool
  | .delayUs n => n != 0
  | .delayMs n => n != 0
  | .nop _ | .readDht11 | .readDht22
  | .rdStatus _ | .rdData0 _ | .rdData1 _ | .rdData2 _ | .rdData3 _
  | .rdPinerr _ | .rdState _ | .rdPos _ | .rdBitcnt _
  | .setLow | .setHigh | .isLow | .isHigh => true

end Sys2Proof
end

