-- ==== Sys2Proof/Decode.lean ====
section
/-! DEFINITION. The decoder, from the match and mask columns of 30_encoding.md rules R96 and R97, with R98's
classes for every other word, and the encoder, from the field layouts of R91-R93. -/

namespace Sys2Proof

/-- One row of the host opcode map: a word matches iff `word & mask = pat` (R96). -/
structure HostRow where
  mask : BusWord
  pat : BusWord
  /-- the instruction a matching word stands for, with the word's free bits as operands -/
  build : BusWord → Instr

/-- One row of the GTA opcode map (R97). -/
structure GtaRow where
  mask : ReqWord
  pat : ReqWord
  build : ReqWord → Instr

/-- `(word & mask) == match` (R96). -/
def HostRow.accepts (r : HostRow) (w : BusWord) : Bool := w &&& r.mask == r.pat

/-- `(word & mask) == match` (R97). -/
def GtaRow.accepts (r : GtaRow) (w : ReqWord) : Bool := w &&& r.mask == r.pat

/-- Field W, bit 12: 1 = write (R91). -/
def busWe (w : BusWord) : Bool := w.getLsbD 12

/-- Field A, bits 11:8: the register address (R91). -/
def busAddr (w : BusWord) : BitVec 4 := w.extractLsb' 8 4

/-- Field D, bits 7:0: the write data (R91). -/
def busData (w : BusWord) : Byte := w.extractLsb' 0 8

/-- Field OP, bits 18:16 (R93). -/
def reqOp (w : ReqWord) : BitVec 3 := w.extractLsb' 16 3

/-- Field ARG, bits 15:0 (R93). -/
def reqArg (w : ReqWord) : BitVec 16 := w.extractLsb' 0 16

/-- The host opcode map of R96. -/
def hostRows : List HostRow := [
  ⟨0x1FFD, 0x1000, fun w => .nop (w.getLsbD 1)⟩,
  ⟨0x1FFF, 0x1001, fun _ => .readDht11⟩,
  ⟨0x1FFF, 0x1003, fun _ => .readDht22⟩,
  ⟨0x1F00, 0x0100, fun w => .rdStatus (busData w)⟩,
  ⟨0x1F00, 0x0200, fun w => .rdData0 (busData w)⟩,
  ⟨0x1F00, 0x0300, fun w => .rdData1 (busData w)⟩,
  ⟨0x1F00, 0x0400, fun w => .rdData2 (busData w)⟩,
  ⟨0x1F00, 0x0500, fun w => .rdData3 (busData w)⟩,
  ⟨0x1F00, 0x0600, fun w => .rdPinerr (busData w)⟩,
  ⟨0x1F00, 0x0700, fun w => .rdState (busData w)⟩,
  ⟨0x1F00, 0x0800, fun w => .rdPos (busData w)⟩,
  ⟨0x1F00, 0x0900, fun w => .rdBitcnt (busData w)⟩]

/-- The GTA opcode map of R97. -/
def gtaRows : List GtaRow := [
  ⟨0x7FFFF, 0x10000, fun _ => .setLow⟩,
  ⟨0x7FFFF, 0x20000, fun _ => .setHigh⟩,
  ⟨0x7FFFF, 0x30000, fun _ => .isLow⟩,
  ⟨0x7FFFF, 0x40000, fun _ => .isHigh⟩,
  ⟨0x70000, 0x50000, fun w => .delayUs (reqArg w)⟩,
  ⟨0x70000, 0x60000, fun w => .delayMs (reqArg w)⟩]

/-- What a HOSTBUS word is: a row of R96, or one of R98's classes. -/
inductive HostDecode where
  /-- the word matches a row of R96 -/
  | instr (i : Instr)
  /-- a read of CMD: defined, the value is 0x00 (R98, R256) -/
  | readCmd
  /-- a write to 0x1-0x9: defined, it changes nothing (R98, R73, R257) -/
  | readOnlyWrite
  /-- a write to CMD with D[7:2] ≠ 0: reserved, a model refuses it (R98, R245, U4) -/
  | reservedCommand
  /-- a read or write of 0xA-0xF: reserved, a model refuses it (R98, R72, U5) -/
  | reservedAddress
deriving DecidableEq, Repr

/-- What a GTAREQ word is: a row of R97, or one of R98's classes. -/
inductive GtaDecode where
  /-- the word matches a row of R97 -/
  | instr (i : Instr)
  /-- OP = 0: no request (R98, R132) -/
  | noRequest
  /-- OP = 7, or OP = 1-4 with ARG ≠ 0: reserved, a model refuses it (R98, R133, U6) -/
  | reserved
deriving DecidableEq, Repr

/-- R98's class of a HOSTBUS word that matches no row of R96. -/
def reservedHostClass (w : BusWord) : HostDecode :=
  if 0xA ≤ (busAddr w).toNat then .reservedAddress
  else if busWe w then (if busAddr w = 0 then .reservedCommand else .readOnlyWrite)
  else .readCmd

/-- Decoding of a word on the host bus (R96, R98). -/
def decodeHostBus (w : BusWord) : HostDecode :=
  match hostRows.find? (fun r => r.accepts w) with
  | some r => .instr (r.build w)
  | none => reservedHostClass w

/-- Decoding of a word on the request port (R97, R98). A delay of length 0 has its row's bits; it is ill-formed,
and its meaning refuses it (R133). -/
def decodeGtaReq (w : ReqWord) : GtaDecode :=
  match gtaRows.find? (fun r => r.accepts w) with
  | some r => .instr (r.build w)
  | none => if reqOp w = 0 then .noRequest else .reserved

/-- The instruction a word on either port stands for, if it is one (R100: the port tells the format). -/
def decode : PortWord → Option Instr
  | .hostBus w => match decodeHostBus w with | .instr i => some i | _ => none
  | .gtaReq w => match decodeGtaReq w with | .instr i => some i | _ => none

/-- The instruction of a word numbered as spec/opcode_table.json numbers it. A 13-bit HOSTBUS row is given in 16
bits and a 19-bit GTAREQ row in 24, which tells the port; bits above the format's length must be 0. -/
def decodeTableWord (nbits w : Nat) : Option Instr :=
  if nbits ≤ 16 then
    if w < 2 ^ 13 then decode (.hostBus (BitVec.ofNat 13 w)) else none
  else
    if w < 2 ^ 19 then decode (.gtaReq (BitVec.ofNat 19 w)) else none

/-- A HOSTBUS word from its fields (R91). -/
def busWord (we : Bool) (addr : BitVec 4) (data : Byte) : BusWord := BitVec.ofBool we ++ addr ++ data

/-- A command byte from its fields, RSV = 0 (R92). -/
def cmdByte (fam start : Bool) : Byte := (0 : BitVec 6) ++ BitVec.ofBool fam ++ BitVec.ofBool start

/-- A GTAREQ word from its fields (R93). -/
def reqWord (op : BitVec 3) (arg : BitVec 16) : ReqWord := op ++ arg

/-- The word of an instruction, from the field layouts of R91-R93. -/
def encode : Instr → PortWord
  | .nop f => .hostBus (busWord true 0x0 (cmdByte f false))
  | .readDht11 => .hostBus (busWord true 0x0 (cmdByte false true))
  | .readDht22 => .hostBus (busWord true 0x0 (cmdByte true true))
  | .rdStatus d => .hostBus (busWord false 0x1 d)
  | .rdData0 d => .hostBus (busWord false 0x2 d)
  | .rdData1 d => .hostBus (busWord false 0x3 d)
  | .rdData2 d => .hostBus (busWord false 0x4 d)
  | .rdData3 d => .hostBus (busWord false 0x5 d)
  | .rdPinerr d => .hostBus (busWord false 0x6 d)
  | .rdState d => .hostBus (busWord false 0x7 d)
  | .rdPos d => .hostBus (busWord false 0x8 d)
  | .rdBitcnt d => .hostBus (busWord false 0x9 d)
  | .setLow => .gtaReq (reqWord 1 0)
  | .setHigh => .gtaReq (reqWord 2 0)
  | .isLow => .gtaReq (reqWord 3 0)
  | .isHigh => .gtaReq (reqWord 4 0)
  | .delayUs n => .gtaReq (reqWord 5 n)
  | .delayMs n => .gtaReq (reqWord 6 n)

end Sys2Proof
end

