-- ==== Sys2Proof/Config.lean ====
section
/-! DEFINITION. The elaboration-time parameters of 00_scope.md rule R7, and the model's free values. The
parameters are plain data that State carries unchanged ("a model takes each as an argument"), so every
statement about all states is a statement about all parameter values (log entry 1). -/

namespace Sys2Proof

/-- The device family f, latched at START: 0 is DHT11, 1 is DHT22 (R7, R30). -/
inductive Family where
  | dht11
  | dht22
deriving DecidableEq, Repr

/-- The parameters of R7. The delay parameters range over 1..65535 and are carried as the 16-bit ARG they become
(R95), so the range is `≠ 0`. -/
structure Config where
  /-- `CYC_PER_US` (C), clock cycles per microsecond -/
  cycPerUs : Nat
  /-- `SYNC_STAGES` (S), synchroniser depth in cycles -/
  syncStages : Nat
  /-- `TIMEOUT_ITERS` (N), polling iterations per bounded wait -/
  timeoutIters : Nat
  /-- `POLL_US`, delay of one polling iteration -/
  pollUs : BitVec 16
  /-- `SAMPLE_DELAY_US`, delay from the detected rise to the bit sample -/
  sampleDelayUs : BitVec 16
  /-- `RESET_LOW_MS[0]` -/
  resetLowMs11 : BitVec 16
  /-- `RESET_LOW_MS[1]` -/
  resetLowMs22 : BitVec 16
  /-- `RELEASE_US[0]` -/
  releaseUs11 : BitVec 16
  /-- `RELEASE_US[1]` -/
  releaseUs22 : BitVec 16
deriving DecidableEq, Repr

/-- The ranges of R7's table. -/
abbrev Config.InRange (c : Config) : Prop :=
  1 ≤ c.cycPerUs ∧ c.syncStages ≤ 7 ∧ 1 ≤ c.timeoutIters ∧ c.timeoutIters ≤ 255 ∧
  c.pollUs ≠ 0 ∧ c.sampleDelayUs ≠ 0 ∧ c.resetLowMs11 ≠ 0 ∧ c.resetLowMs22 ≠ 0 ∧
  c.releaseUs11 ≠ 0 ∧ c.releaseUs22 ≠ 0

/-- `RESET_LOW_MS[f]` (R7). -/
def Config.resetLowMs (c : Config) : Family → BitVec 16
  | .dht11 => c.resetLowMs11
  | .dht22 => c.resetLowMs22

/-- `RELEASE_US[f]` (R7). -/
def Config.releaseUs (c : Config) : Family → BitVec 16
  | .dht11 => c.releaseUs11
  | .dht22 => c.releaseUs22

/-- `ITER_CYC` = 1 + `POLL_US`·C, the cycles of one polling iteration (R8). -/
def Config.iterCyc (c : Config) : Nat := 1 + c.pollUs.toNat * c.cycPerUs

/-- The vector configuration VC of R9: the values R7 takes, with its OPEN parameters C = 1 and `RELEASE_US` = 20. -/
def Config.vc : Config where
  cycPerUs := 1
  syncStages := 2
  timeoutIters := 100
  pollUs := 1
  sampleDelayUs := 35
  resetLowMs11 := 18
  resetLowMs22 := 18
  releaseUs11 := 20
  releaseUs22 := 20

/-- FREE VALUE: the environment's line level (true = high) at the given draw index, when State schedules none
(R140: "Each is a draw"; log entry 3). -/
opaque Config.freeLine : Nat → Bool

/-- FREE VALUE: the environment's `pin_fault` at the given draw index (R130, R140; log entry 3). -/
opaque Config.freePinFault : Nat → Bool

/-- FREE VALUE: the environment's `pin_fault_code` at the given draw index (R130, R140, U11; log entry 3). -/
opaque Config.freePinFaultCode : Nat → Byte

/-- FREE VALUE: what a reset cycle at the given draw index leaves in synchroniser stage i (R41, U7: "any value";
log entry 4). -/
opaque Config.freeSyncBit : Nat → Nat → Bool

end Sys2Proof
end

