-- ==== Sys2Proof/Machine/State.lean ====
section
/-! DEFINITION. The state of the block (10_state.md rules R20-R41), the inputs waiting at its ports, the values its
output ports carried in the last cycle, and why a step can stop. -/

namespace Sys2Proof.Machine

/-- The engine states of R21, in code order 0..7. -/
inductive EngSt where
  | idle
  | reset
  | ackWait1
  | ackWait2
  | bitLoop
  | validate
  | done
  | failed
deriving DecidableEq, Repr

/-- The outcome codes of R31 and R271, in code order 0..3. -/
inductive Result where
  | ok
  | pinFault
  | timeout
  | checksumMismatch
deriving DecidableEq, Repr

/-- The GTA opcodes `gop` can hold (R37, R93), in code order 0..6; code 7 is reserved and never executes. -/
inductive GtaOp where
  | none
  | setLow
  | setHigh
  | isLow
  | isHigh
  | delayUs
  | delayMs
deriving DecidableEq, Repr

/-- The GTA's response GTARSP, field by field (R94). -/
structure GtaRsp where
  done : Bool
  err : Bool
  val : Bool
  code : Byte
deriving DecidableEq, Repr

/-- The RawPayload `data[0..3]` (R33). -/
structure Payload where
  d0 : Byte
  d1 : Byte
  d2 : Byte
  d3 : Byte
deriving DecidableEq, Repr

/-- What the platform and the host present in one cycle: `rst` (R5, R310) and at most one bus access (R60, R61);
`none` is `bus_en` = 0. -/
structure HostIn where
  rst : Bool
  access : Option BusWord
deriving DecidableEq, Repr

/-- One cycle's draw of the environment (R140): the line level while the pad is released (true = high), `pin_fault`
and `pin_fault_code`. -/
structure EnvDraw where
  line : Bool
  pinFault : Bool
  pinFaultCode : Byte
deriving DecidableEq, Repr

/-- The state at the start of a cycle. The fields from `st` to `gop` are R21-R37. The ports hold what was on the
block's output wires in the cycle that just ended. `hostQ`, `envQ` and `drawIx` are the inputs: what each coming
cycle presents, head first (log entries 2 and 3). -/
structure State where
  /-- the elaboration-time parameters (R7); no step writes them -/
  cfg : Config
  /-- engine state (R21) -/
  st : EngSt
  /-- `step`, the operation index within `st` (R22) -/
  stepIx : BitVec 3
  /-- last non-terminal engine state (R23) -/
  ph : EngSt
  /-- unmatched iterations of the current wait (R25) -/
  iter : BitVec 8
  /-- wait phase: false = sample cycle, true = polling delay (R26) -/
  wph : Bool
  /-- data bits received (R27) -/
  bitcnt : BitVec 6
  /-- receive shift register (R28) -/
  sr : BitVec 40
  /-- sampled value of the bit in progress (R29) -/
  b : Bool
  /-- family of the current or last exchange (R30) -/
  fam : Family
  /-- outcome code of the last exchange (R31) -/
  result : Result
  /-- pin-fault code of the last exchange (R32) -/
  pinerr : Byte
  /-- RawPayload (R33) -/
  data : Payload
  /-- pad drive register: true = the pad pulls the line low (R34) -/
  padLow : Bool
  /-- input synchroniser `sync[0..S-1]`, stage 0 first (R35) -/
  sync : List Bool
  /-- GTA delay counter (R36) -/
  dcnt : Nat
  /-- GTA primitive that was in execution and goes on in the coming cycle: a running delay (R37; log entry 6). The
  primitive in execution in a cycle, its issue cycle among them, is `State.gopInCycle` -/
  gop : GtaOp
  /-- port `bus_rdata` in the last cycle (R60, R62) -/
  busRdata : Byte
  /-- port GTAREQ in the last cycle (R93); OP = 0 is no request, and ARG is 0 beside it (DESIGN CHOICE, log entry 14) -/
  gtaReq : ReqWord
  /-- port GTARSP in the last cycle (R94) -/
  gtaRsp : GtaRsp
  /-- inputs of the host and platform, the coming cycle first; past the end: no access, `rst` = 0 -/
  hostQ : List HostIn
  /-- draws of the environment, the coming cycle first; past the end: the free values of Config -/
  envQ : List EnvDraw
  /-- index of the next free draw; one is used up in every cycle -/
  drawIx : Nat
deriving DecidableEq, Repr

/-- Why the machine stops with a fault. -/
inductive Fault where
  /-- Raised by a cycle in which BUSY = 1 and `(st, step)` is a pair R22's table does not list. The spec gives such a
  pair no operation and says that no other pair is reachable. Safe: the machine stops, and no run from reset meets it. -/
  | illegalPosition
deriving DecidableEq, Repr

/-- Why the machine refuses a word. -/
inductive Refusal where
  /-- Raised by exec for an instruction without a meaning yet; no arm of this model uses it. Safe. -/
  | notModelled (mnemonic : String)
  /-- Raised by a bus write to CMD with D[7:2] ≠ 0: "a model treats it as refused" (R245, R98, U4). Safe: the
  hardware would go on with no state change. -/
  | reservedCommand (w : BusWord)
  /-- Raised by a bus access to 0xA-0xF: "a model treats an access to them as refused" (R72, R98, U5). Safe: the
  hardware would go on with no state change, a read giving 0x00. -/
  | reservedAddress (w : BusWord)
  /-- Raised by a reserved GTA request, `DELAY_US 0` and `DELAY_MS 0` among them: "A model refuses all three" (R133,
  R98, U6). Safe: the engine never issues one while the parameters are in R7's ranges. -/
  | reservedRequest (w : ReqWord)
deriving DecidableEq, Repr

/-- GTARSP with DONE = 0: no primitive ends in the cycle (R94, R123). -/
def GtaRsp.quiet : GtaRsp := ⟨false, false, false, 0⟩

/-- All four bytes 0x00 (R33, R41). -/
def Payload.zero : Payload := ⟨0, 0, 0, 0⟩

/-- Every element at the value of R41's table. The table leaves the synchroniser open and does not speak of the
parameters, which are arguments here; no input is scheduled and every port is quiet. -/
def State.resetWith (cfg : Config) (sync : List Bool) : State where
  cfg := cfg
  st := .idle
  stepIx := 0
  ph := .idle
  iter := 0
  wph := false
  bitcnt := 0
  sr := 0
  b := false
  fam := .dht11
  result := .ok
  pinerr := 0
  data := .zero
  padLow := false
  sync := sync
  dcnt := 0
  gop := .none
  busRdata := 0
  gtaReq := 0
  gtaRsp := .quiet
  hostQ := []
  envQ := []
  drawIx := 0

/-- The machine right after reset, in the configuration VC of R9 (log entry 1), each synchroniser stage at 0 (R41
leaves it unspecified; DESIGN CHOICE, log entry 4). -/
def State.reset : State := .resetWith .vc (List.replicate Config.vc.syncStages false)

end Sys2Proof.Machine
end

