-- ==== Sys2Proof/Machine/Operands.lean ====
section
/-! DEFINITION. The operands: the inputs of the coming cycle, the line and the level the engine sees
(40_gpio_timing.md rules R121, R122), delay lengths in cycles (R123), and the fields of a command byte (R92, R95). -/

namespace Sys2Proof

/-- L of `DELAY_US n`: n·C cycles (R123, R128). -/
def Config.usCycles (c : Config) (n : BitVec 16) : Nat := n.toNat * c.cycPerUs

/-- L of `DELAY_MS n`: n·1000·C cycles (R123, R129). -/
def Config.msCycles (c : Config) (n : BitVec 16) : Nat := n.toNat * 1000 * c.cycPerUs

end Sys2Proof

namespace Sys2Proof.Machine

/-- What the host and platform present in the coming cycle. -/
def State.hostIn (s : State) : HostIn := s.hostQ.headD ⟨false, none⟩

/-- What the environment draws for the coming cycle (R140): the scheduled draw, else the free one. -/
def State.draw (s : State) : EnvDraw :=
  s.envQ.headD ⟨Config.freeLine s.drawIx, Config.freePinFault s.drawIx, Config.freePinFaultCode s.drawIx⟩

/-- `line(c)` = `pin_in(c)`, true = high: low while the pad drives low, else the environment's level (R121). -/
def State.line (s : State) : Bool := !s.padLow && s.draw.line

/-- `seen(c)`: `sync[S-1]`, or `pin_in(c)` when S = 0 (R122). -/
def State.seen (s : State) : Bool :=
  if s.cfg.syncStages = 0 then s.line else s.sync.getD (s.cfg.syncStages - 1) false

/-- The synchroniser at the end of the cycle: `sync[0] <- pin_in`, `sync[i] <- sync[i-1]` (R35). -/
def State.syncNext (s : State) : List Bool := (s.line :: s.sync).take s.cfg.syncStages

/-- START, bit 0 of a command byte (R92). -/
def cmdStart (v : Byte) : Bool := v.getLsbD 0

/-- The family that bit 1 of a command byte selects (R92, R95). -/
def cmdFamily (v : Byte) : Family := if v.getLsbD 1 then .dht22 else .dht11

/-- RSV, bits 7:2 of a command byte (R92). -/
def cmdReserved (v : Byte) : BitVec 6 := v.extractLsb' 2 6

end Sys2Proof.Machine
end

