-- ==== Sys2Proof/Machine/Flags.lean ====
section
/-! DEFINITION. The status flags, which are functions of `st` (10_state.md rule R38), the numeric codes of the named
fields, the register values the host reads (20_memory.md rules R66, R69-R71), and the output pins (R120, R258). -/

namespace Sys2Proof.Machine

/-- The code of an engine state (R21). -/
def EngSt.code : EngSt → BitVec 3
  | .idle => 0
  | .reset => 1
  | .ackWait1 => 2
  | .ackWait2 => 3
  | .bitLoop => 4
  | .validate => 5
  | .done => 6
  | .failed => 7

/-- BUSY of an engine state (R21, R38). -/
def EngSt.busy : EngSt → Bool
  | .reset | .ackWait1 | .ackWait2 | .bitLoop | .validate => true
  | .idle | .done | .failed => false

/-- DONE of an engine state (R21, R38). -/
def EngSt.ended : EngSt → Bool
  | .done | .failed => true
  | .idle | .reset | .ackWait1 | .ackWait2 | .bitLoop | .validate => false

/-- BUSY (R38). -/
def State.busy (s : State) : Bool := s.st.busy

/-- DONE (R38). -/
def State.ended (s : State) : Bool := s.st.ended

/-- The outcome code (R31, R271). -/
def Result.code : Result → BitVec 2
  | .ok => 0
  | .pinFault => 1
  | .timeout => 2
  | .checksumMismatch => 3

/-- The family bit: 0 = DHT11, 1 = DHT22 (R30). -/
def famBit : Family → BitVec 1
  | .dht11 => 0
  | .dht22 => 1

/-- The opcode of a primitive (R93). -/
def GtaOp.code : GtaOp → BitVec 3
  | .none => 0
  | .setLow => 1
  | .setHigh => 2
  | .isLow => 3
  | .isHigh => 4
  | .delayUs => 5
  | .delayMs => 6

/-- The primitive an opcode names (R93); code 7 is reserved and names none. -/
def GtaOp.ofCode (c : BitVec 3) : GtaOp :=
  match c.toNat with
  | 1 => .setLow
  | 2 => .setHigh
  | 3 => .isLow
  | 4 => .isHigh
  | 5 => .delayUs
  | 6 => .delayMs
  | _ => .none

/-- The GTARSP word (R94). -/
def GtaRsp.word (r : GtaRsp) : RspWord :=
  BitVec.ofBool r.done ++ BitVec.ofBool r.err ++ BitVec.ofBool r.val ++ r.code

/-- STATUS = 000, fam, result, DONE, BUSY from bit 7 down (R64, R66, R247). -/
def State.statusByte (s : State) : Byte :=
  (0 : BitVec 3) ++ famBit s.fam ++ s.result.code ++ BitVec.ofBool s.ended ++ BitVec.ofBool s.busy

/-- STATE = 00000, st (R69, R253). -/
def State.stateByte (s : State) : Byte := (0 : BitVec 5) ++ s.st.code

/-- POS = 00, step, ph (R70, R254). -/
def State.posByte (s : State) : Byte := (0 : BitVec 2) ++ s.stepIx ++ s.ph.code

/-- BITCNT = 00, bitcnt (R71, R255). -/
def State.bitcntByte (s : State) : Byte := (0 : BitVec 2) ++ s.bitcnt

/-- Output `o_busy` (R258). -/
def State.oBusy (s : State) : Bool := s.busy

/-- Output `o_done` (R258). -/
def State.oDone (s : State) : Bool := s.ended

/-- Output `pin_drive_low` (R120). -/
def State.pinDriveLow (s : State) : Bool := s.padLow

end Sys2Proof.Machine
end

