-- ==== Sys2Proof/Machine/Ops.lean ====
section
/-! DEFINITION. The shared operations: host register reads and writes (20_memory.md rules R62-R73), START acceptance
(43_host_interface.md rule R241), what the GTA does in an issue cycle and in the later cycles of a delay
(40_gpio_timing.md rules R124-R132), failure entry (60_exceptions.md rule R276) and reset (70_reset_and_hazards.md
rule R310). -/

namespace Sys2Proof.Machine

/-- The outcome of one step or one meaning. -/
abbrev Res := Host.Outcome State Fault Refusal

/-- Go on from a next state; a stop stays. -/
def andThen (o : Res) (f : State → Res) : Res :=
  match o with
  | .next s => f s
  | .fault r => .fault r
  | .refused r => .refused r

/-! ## The host's side -/

/-- `MemRead(addr, 1)`: the register map of R64, on the state at the start of the cycle (R62). CMD and the reserved
addresses read 0x00 (R65, R72, R256). -/
def memRead (a : BitVec 4) (s : State) : Byte :=
  match a.toNat with
  | 0x1 => s.statusByte
  | 0x2 => s.data.d0
  | 0x3 => s.data.d1
  | 0x4 => s.data.d2
  | 0x5 => s.data.d3
  | 0x6 => s.pinerr
  | 0x7 => s.stateByte
  | 0x8 => s.posByte
  | 0x9 => s.bitcntByte
  | _ => 0

/-- Put a value on `bus_rdata` for the cycle (R60). -/
def driveData (v : Byte) (s : State) : State := { s with busRdata := v }

/-- START acceptance with a family: every exchange variable is cleared and the engine goes to (RESET, 0) (R241). -/
def acceptStart (f : Family) (s : State) : State :=
  { s with
    fam := f
    st := .reset, stepIx := 0, ph := .reset
    result := .ok, pinerr := 0, data := .zero
    bitcnt := 0, sr := 0, b := false, iter := 0, wph := false }

/-- A START request: accepted when BUSY = 0, without effect when BUSY = 1 (R240 cases 4 and 5, R244). -/
def requestStart (f : Family) (s : State) : State :=
  if s.busy then s else acceptStart f s

/-- A write of v to CMD while `rst` = 0, in the order of R240's cases 2-5. -/
def writeCmd (v : Byte) (s : State) : State :=
  if cmdReserved v ≠ 0 then s
  else if cmdStart v then requestStart (cmdFamily v) s
  else s

/-- `MemWrite(addr, 1, v)`: only CMD has an effect (R63, R73, R257). -/
def memWrite (a : BitVec 4) (v : Byte) (s : State) : State :=
  if a = 0 then writeCmd v s else s

/-! ## The GTA -/

/-- Put a request on the engine-to-GTA port (R93, R123). -/
def presentRequest (w : ReqWord) (s : State) : State := { s with gtaReq := w }

/-- Put a response on the GTA-to-engine port (R94). -/
def respond (r : GtaRsp) (s : State) : State := { s with gtaRsp := r }

/-- DONE = 1, ERR = 0, VAL = 0 (R124, R125, R128). -/
def GtaRsp.ok : GtaRsp := ⟨true, false, false, 0⟩

/-- DONE = 1, ERR = 0 and the answer of a query (R126, R127). -/
def GtaRsp.answer (v : Bool) : GtaRsp := ⟨true, false, v, 0⟩

/-- DONE = 1, ERR = 1 and the pin-fault code (R124-R127). -/
def GtaRsp.error (code : Byte) : GtaRsp := ⟨true, true, false, code⟩

/-- Write the pad drive register (R34). -/
def drivePad (low : Bool) (s : State) : State := { s with padLow := low }

/-- The issue cycle of `SET_LOW` or `SET_HIGH`: a pin fault answers ERR and leaves the pad (R124, R125, R130). -/
def pinWrite (low : Bool) (s : State) : State :=
  if s.draw.pinFault then respond (.error s.draw.pinFaultCode) s
  else drivePad low (respond .ok s)

/-- The issue cycle of `IS_LOW` or `IS_HIGH`: is the observed level `level`? A pin fault answers ERR (R126, R127, R130). -/
def pinQuery (level : Bool) (s : State) : State :=
  if s.draw.pinFault then respond (.error s.draw.pinFaultCode) s
  else respond (.answer (s.seen == level)) s

/-- The issue cycle of a delay of `len` cycles; a delay ignores `pin_fault` (R128, R129, R131). -/
def startDelay (op : GtaOp) (len : Nat) (s : State) : State :=
  if len = 1 then respond .ok s
  else { respond .quiet s with dcnt := len - 1, gop := op }

/-- A later cycle of a running delay (R128): DONE in its last cycle, in which `dcnt` is 1 at the start. `gop` is held
until then (R37). There is no request: OP = 0, with ARG 0 (DESIGN CHOICE, log entry 14). -/
def tickDelay (s : State) : State :=
  if s.dcnt = 1 then { respond .ok s with gtaReq := 0, dcnt := 0, gop := .none }
  else { respond .quiet s with gtaReq := 0, dcnt := s.dcnt - 1 }

/-- The GTA in a cycle without a request: idle (R132), or in a later cycle of a delay (R128). The request port shows
OP = 0; its ARG, which R93 gives for OP 1-6 only, is 0 there (DESIGN CHOICE, log entry 14). -/
def gtaNoRequest (s : State) : State :=
  if s.dcnt = 0 then { respond .quiet s with gtaReq := 0 } else tickDelay s

/-! ## How an exchange ends, and reset -/

/-- The three ways an operation fails (R271-R274). -/
inductive Failure where
  | pinFault (code : Byte)
  | timeout
  | checksumMismatch
deriving DecidableEq, Repr

/-- The outcome code a failure records (R271). -/
def Failure.result : Failure → Result
  | .pinFault _ => .pinFault
  | .timeout => .timeout
  | .checksumMismatch => .checksumMismatch

/-- What a failure leaves in `pinerr`: the code of a pin fault, else what stood there (R276). -/
def Failure.pinerr (f : Failure) (before : Byte) : Byte :=
  match f with
  | .pinFault code => code
  | .timeout | .checksumMismatch => before

/-- Failure entry (R276): `st <- FAILED`, `result <- code`, and `pinerr <- k` for a pin fault only. Everything else
of the exchange stays. It is the block's trap entry; there is no return from it (R280). -/
def failExchange (f : Failure) (s : State) : State :=
  { s with st := .failed, result := f.result, pinerr := f.pinerr s.pinerr }

/-- The synchroniser after a reset cycle: S stages of any value (R41, U7; log entry 4). -/
def freeSync (s : State) : List Bool := (List.range s.cfg.syncStages).map (Config.freeSyncBit s.drawIx)

/-- The inputs of the cycle that ends are used up. -/
def consumeInputs (s : State) : State :=
  { s with hostQ := s.hostQ.drop 1, envQ := s.envQ.drop 1, drawIx := s.drawIx + 1 }

/-- Reset: every element takes the value of R41; the parameters and the inputs still waiting are not elements of the
block and stay (R310, R312). -/
def resetBlock (s : State) : State :=
  { State.resetWith s.cfg (freeSync s) with hostQ := s.hostQ, envQ := s.envQ, drawIx := s.drawIx }

/-- The end of a cycle that started in s0 and whose operations gave s1: the synchroniser shifts (R35), `ph` follows
a busy `st` (R23), and the inputs are used up. -/
def endCycle (s0 s1 : State) : State :=
  consumeInputs { s1 with sync := s0.syncNext, ph := if s1.busy then s1.st else s1.ph }

end Sys2Proof.Machine
end

