-- ==== Sys2Proof/Machine/Gta.lean ====
section
/-! DEFINITION. The GTA primitives, each in its issue cycle (40_gpio_timing.md rules R124-R131): what the GTA writes
and what it answers on GTARSP. What the engine does with the answer is Engine.lean's. -/

namespace Sys2Proof.Machine

/-- `SET_LOW`: the pad pulls the line low from the next cycle on (R124). -/
def execSetLow (s : State) : Res := .next (pinWrite true s)

/-- `SET_HIGH`: the pad is released from the next cycle on (R125). -/
def execSetHigh (s : State) : Res := .next (pinWrite false s)

/-- `IS_LOW`: is the observed level low? (R126) -/
def execIsLow (s : State) : Res := .next (pinQuery false s)

/-- `IS_HIGH`: is the observed level high? (R127) -/
def execIsHigh (s : State) : Res := .next (pinQuery true s)

/-- `DELAY_US n`: n·C cycles (R128). A length of 0 is reserved and refused (R133, U6). -/
def execDelayUs (n : BitVec 16) (s : State) : Res :=
  if n = 0 then .refused (.reservedRequest (reqWord 5 0)) else .next (startDelay .delayUs (s.cfg.usCycles n) s)

/-- `DELAY_MS n`: n·1000·C cycles (R129). A length of 0 is reserved and refused (R133, U6). -/
def execDelayMs (n : BitVec 16) (s : State) : Res :=
  if n = 0 then .refused (.reservedRequest (reqWord 6 0)) else .next (startDelay .delayMs (s.cfg.msCycles n) s)

end Sys2Proof.Machine
end

