-- ==== Sys2Proof/Machine/HostCommands.lean ====
section
/-! DEFINITION. The host commands, writes to CMD (43_host_interface.md rules R240-R246). A write leaves
`bus_rdata` at 0x00 (R62). -/

namespace Sys2Proof.Machine

/-- NOP: no state change, at any time; bit 1 of the command is ignored (R246). -/
def execNop (s : State) : Res := .next (driveData 0 s)

/-- READ_DHT11: START with family 0, without effect while BUSY = 1 (R242, R244). -/
def execReadDht11 (s : State) : Res := .next (driveData 0 (requestStart .dht11 s))

/-- READ_DHT22: START with family 1, without effect while BUSY = 1 (R243, R244). -/
def execReadDht22 (s : State) : Res := .next (driveData 0 (requestStart .dht22 s))

end Sys2Proof.Machine
end

