-- ==== Sys2Proof/Machine/HostReads.lean ====
section
/-! DEFINITION. The register reads (43_host_interface.md rules R247-R255). Each puts one register, as it stands at
the start of the cycle, on `bus_rdata` and changes nothing else; each is legal at any time. -/

namespace Sys2Proof.Machine

/-- RD STATUS (R247). -/
def execRdStatus (s : State) : Res := .next (driveData (memRead 0x1 s) s)

/-- RD DATA0 (R248). -/
def execRdData0 (s : State) : Res := .next (driveData (memRead 0x2 s) s)

/-- RD DATA1 (R249). -/
def execRdData1 (s : State) : Res := .next (driveData (memRead 0x3 s) s)

/-- RD DATA2 (R250). -/
def execRdData2 (s : State) : Res := .next (driveData (memRead 0x4 s) s)

/-- RD DATA3 (R251). -/
def execRdData3 (s : State) : Res := .next (driveData (memRead 0x5 s) s)

/-- RD PINERR (R252). -/
def execRdPinerr (s : State) : Res := .next (driveData (memRead 0x6 s) s)

/-- RD STATE (R253). -/
def execRdState (s : State) : Res := .next (driveData (memRead 0x7 s) s)

/-- RD POS (R254). -/
def execRdPos (s : State) : Res := .next (driveData (memRead 0x8 s) s)

/-- RD BITCNT (R255). -/
def execRdBitcnt (s : State) : Res := .next (driveData (memRead 0x9 s) s)

end Sys2Proof.Machine
end

