-- ==== Sys2Proof/Machine/Dispatch.lean ====
section
/-! DEFINITION. The meaning of each instruction, one arm per constructor: a HOSTBUS access's effect at the host's
port, a GTAREQ primitive's effect at the GTA in its issue cycle. -/

namespace Sys2Proof.Machine

def exec (i : Instr) (s : State) : Host.Outcome State Fault Refusal :=
  match i with
  | .nop _ => Sys2Proof.Machine.execNop s
  | .readDht11 => Sys2Proof.Machine.execReadDht11 s
  | .readDht22 => Sys2Proof.Machine.execReadDht22 s
  | .rdStatus _ => Sys2Proof.Machine.execRdStatus s
  | .rdData0 _ => Sys2Proof.Machine.execRdData0 s
  | .rdData1 _ => Sys2Proof.Machine.execRdData1 s
  | .rdData2 _ => Sys2Proof.Machine.execRdData2 s
  | .rdData3 _ => Sys2Proof.Machine.execRdData3 s
  | .rdPinerr _ => Sys2Proof.Machine.execRdPinerr s
  | .rdState _ => Sys2Proof.Machine.execRdState s
  | .rdPos _ => Sys2Proof.Machine.execRdPos s
  | .rdBitcnt _ => Sys2Proof.Machine.execRdBitcnt s
  | .setLow => Sys2Proof.Machine.execSetLow s
  | .setHigh => Sys2Proof.Machine.execSetHigh s
  | .isLow => Sys2Proof.Machine.execIsLow s
  | .isHigh => Sys2Proof.Machine.execIsHigh s
  | .delayUs n => Sys2Proof.Machine.execDelayUs n s
  | .delayMs n => Sys2Proof.Machine.execDelayMs n s

end Sys2Proof.Machine
end

