-- ==== Sys2Proof/Machine/Engine.lean ====
section
/-! DEFINITION. The protocol engine: which operation each position names (10_state.md rule R22), the primitive it
asks of the GTA (41_protocol_engine.md rules R161-R183), what it does with the answer (R160-R182), and the checksum
validator (42_checksum.md rules R220, R221). -/

namespace Sys2Proof.Machine

/-- The operations of R22's table. `wait true` is `WAIT_HIGH`, `wait false` is `WAIT_LOW` (R163, R164). -/
inductive EngOp where
  | setLow
  | resetLow
  | setHigh
  | release
  | wait (level : Bool)
  | transit
  | sampleDelay
  | sample
  | validate
deriving DecidableEq, Repr

/-- R22's table of legal positions. -/
def opAt (st : EngSt) (stepIx : BitVec 3) : Option EngOp :=
  match st, stepIx.toNat with
  | .reset, 0 => some .setLow
  | .reset, 1 => some .resetLow
  | .reset, 2 => some .setHigh
  | .reset, 3 => some .release
  | .reset, 4 => some (.wait true)
  | .ackWait1, 0 => some (.wait false)
  | .ackWait1, 1 => some (.wait true)
  | .ackWait1, 2 => some (.wait false)
  | .ackWait2, 0 => some .transit
  | .bitLoop, 0 => some (.wait true)
  | .bitLoop, 1 => some .sampleDelay
  | .bitLoop, 2 => some .sample
  | .bitLoop, 3 => some (.wait false)
  | .validate, 0 => some .validate
  | _, _ => none

/-- The operation of the coming cycle (R22). -/
def State.op (s : State) : Option EngOp := opAt s.st s.stepIx

/-- The primitive an operation asks for when it starts one, with its operand (R95, R161, R166-R179). The transit and
VALIDATE ask for none (R174, R221). -/
def requestOf (op : EngOp) (s : State) : Option Instr :=
  match op with
  | .setLow => some .setLow
  | .resetLow => some (.delayMs (s.cfg.resetLowMs s.fam))
  | .setHigh => some .setHigh
  | .release => some (.delayUs (s.cfg.releaseUs s.fam))
  | .wait level =>
    if s.wph then some (.delayUs s.cfg.pollUs)
    else if level then some .isHigh else some .isLow
  | .sampleDelay => some (.delayUs s.cfg.sampleDelayUs)
  | .sample => some .isHigh
  | .transit | .validate => none

/-- The GTAREQ word of a primitive (R93); a host access has none. -/
def requestWord (i : Instr) : ReqWord :=
  match encode i with
  | .gtaReq w => w
  | .hostBus _ => 0

/-- The GTAREQ the engine presents in the coming cycle: a request in the first cycle of a primitive only, OP = 0
otherwise (R93, R123, R186), with ARG 0 beside it (DESIGN CHOICE, log entry 14). -/
def State.request (s : State) : ReqWord :=
  if s.busy && s.dcnt == 0 then
    match s.op with
    | some op => ((requestOf op s).map requestWord).getD 0
    | none => 0
  else 0

/-- `gop` in the coming cycle: the opcode of the request in a primitive's issue cycle, which is all of a single-cycle
primitive; the running delay in a delay's later cycles, its last one among them; else none (R37, log entry 6). -/
def State.gopInCycle (s : State) : GtaOp := if s.dcnt = 0 then .ofCode (reqOp s.request) else s.gop

/-- Go to step 0 of a state (R160). -/
def enter (st : EngSt) (s : State) : State := { s with st := st, stepIx := 0 }

/-- The next step of the same state (R24). -/
def nextStep (s : State) : State := { s with stepIx := s.stepIx + 1 }

/-- `sr <- {sr[38:0], b}` (R180). -/
def shiftIn (sr : BitVec 40) (b : Bool) : BitVec 40 := sr.extractLsb' 0 39 ++ BitVec.ofBool b

/-- A bit's closing `WAIT_LOW` has succeeded: commit the bit, then the next bit, or VALIDATE after 40 (R179, R182). -/
def commitBit (s : State) : State :=
  let t := { s with sr := shiftIn s.sr s.b, bitcnt := s.bitcnt + 1 }
  if s.bitcnt.toNat + 1 = 40 then enter .validate t else enter .bitLoop t

/-- What follows an operation that completes without error: the transition table of R160. -/
def advance (s : State) : State :=
  match s.st, s.stepIx.toNat with
  | .reset, 4 => enter .ackWait1 s
  | .ackWait1, 2 => enter .ackWait2 s
  | .ackWait2, _ => enter .bitLoop s
  | .bitLoop, 3 => commitBit s
  | _, _ => nextStep s

/-- CHK(x0, x1, x2, x3) = (x0 + x1 + x2 + x3) mod 256 (R220). -/
def chk (x0 x1 x2 x3 : Byte) : Byte := x0 + x1 + x2 + x3

/-- Frame byte f_j = `sr[39 - 8j : 32 - 8j]`, j = 0..4 (R180, R221). -/
def frameByte (sr : BitVec 40) (j : Nat) : Byte := sr.extractLsb' (32 - 8 * j) 8

/-- (VALIDATE, 0): compare and commit (R221). -/
def validate (s : State) : State :=
  if chk (frameByte s.sr 0) (frameByte s.sr 1) (frameByte s.sr 2) (frameByte s.sr 3) = frameByte s.sr 4 then
    { s with
      data := ⟨frameByte s.sr 0, frameByte s.sr 1, frameByte s.sr 2, frameByte s.sr 3⟩
      result := .ok
      st := .done }
  else failExchange .checksumMismatch s

/-- The end of a bounded wait's polling delay: the next iteration, or Timeout after the N-th (R161, R273). -/
def endOfPoll (s : State) : State :=
  if s.iter.toNat + 1 < s.cfg.timeoutIters then { s with iter := s.iter + 1, wph := false }
  else failExchange .timeout s

/-- The answer of a bounded wait's sample: a fault first, then a match, else the polling delay follows (R161, R278). -/
def afterSample (s : State) : State :=
  if s.gtaRsp.err then failExchange (.pinFault s.gtaRsp.code) s
  else if s.gtaRsp.val then advance { s with iter := 0, wph := false }
  else { s with wph := true }

/-- What the engine does at the end of a cycle of an operation that uses the GTA, given the response of the cycle: it
waits for DONE, fails on ERR, and goes on otherwise (R123, R160-R179, R272). -/
def engineReact (op : EngOp) (s : State) : State :=
  if !s.gtaRsp.done then s
  else match op with
  | .setLow | .setHigh =>
    if s.gtaRsp.err then failExchange (.pinFault s.gtaRsp.code) s else advance s
  | .sample =>
    if s.gtaRsp.err then failExchange (.pinFault s.gtaRsp.code) s else advance { s with b := s.gtaRsp.val }
  | .wait _ => if s.wph then endOfPoll s else afterSample s
  | .resetLow | .release | .sampleDelay => advance s
  | .transit | .validate => s

end Sys2Proof.Machine
end

