-- ==== Sys2Proof/Machine/Cycle.lean ====
section
/-! DEFINITION. One clock cycle (00_scope.md rules R5, R6): the host's access, the engine with the GTA, the
synchroniser, and reset above all (60_exceptions.md rule R278). A host START takes effect only when BUSY = 0 and the
engine moves only when BUSY = 1 at the start of the cycle, so the two never write in one cycle. -/

namespace Sys2Proof.Machine

/-- The host's port in a cycle with `rst` = 0 (R62, R63, R98). Without an access `bus_rdata` is 0x00. -/
def hostPort (s : State) : Res :=
  match s.hostIn.access with
  | none => .next (driveData 0 s)
  | some w =>
    match decodeHostBus w with
    | .instr i => exec i s
    | .readCmd => .next (driveData (memRead (busAddr w) s) s)
    | .readOnlyWrite => .next (driveData 0 (memWrite (busAddr w) (busData w) s))
    | .reservedCommand => .refused (.reservedCommand w)
    | .reservedAddress => .refused (.reservedAddress w)

/-- Issue a request to the GTA: the word on the request port is decoded and run (R123). -/
def issue (w : ReqWord) (s : State) : Res :=
  match decodeGtaReq w with
  | .instr i => exec i (presentRequest w s)
  | .noRequest => .next (gtaNoRequest s)
  | .reserved => .refused (.reservedRequest w)

/-- The engine and the GTA in a cycle that starts with BUSY = 1, for the operation the position names. -/
def runOp (op : EngOp) (s : State) : Res :=
  match op with
  | .transit => .next (advance (gtaNoRequest s))
  | .validate => .next (validate (gtaNoRequest s))
  | _ =>
    if s.dcnt = 0 then andThen (issue s.request s) fun t => .next (engineReact op t)
    else .next (engineReact op (gtaNoRequest s))

/-- The engine and the GTA in a cycle: nothing but the GTA runs while BUSY = 0 (R186, R277). -/
def engineCycle (s : State) : Res :=
  if s.busy then
    match s.op with
    | some op => runOp op s
    | none => .fault .illegalPosition
  else .next (gtaNoRequest s)

/-- The engine's cycle after the host's access, in the cycle that started in s0: it runs only if BUSY = 1 at the
start of the cycle, so an exchange accepted in this cycle starts in the next (R165). -/
def engineAfterHost (s0 s1 : State) : Res :=
  if s0.busy then engineCycle s1 else .next (gtaNoRequest s1)

/-- A cycle with `rst` = 1: reset wins over everything; a write is discarded, a read still returns the register value
from the start of the cycle (R278, R310, R311). A read of a reserved address is refused all the same (U5). -/
def resetCycle (s : State) : Res :=
  match s.hostIn.access with
  | none => .next (consumeInputs (resetBlock s))
  | some w =>
    if busWe w then .next (consumeInputs (resetBlock s))
    else if decodeHostBus w = .reservedAddress then .refused (.reservedAddress w)
    else .next (consumeInputs (driveData (memRead (busAddr w) s) (resetBlock s)))

/-- A cycle with `rst` = 0. -/
def runCycle (s : State) : Res :=
  andThen (hostPort s) fun s1 => andThen (engineAfterHost s s1) fun s2 => .next (endCycle s s2)

/-- One clock cycle. -/
def clockCycle (s : State) : Res := if s.hostIn.rst then resetCycle s else runCycle s

/-- The coming cycle presents this host access, with `rst` = 0. -/
def withHostAccess (w : BusWord) (s : State) : State :=
  { s with hostQ := ⟨false, some w⟩ :: s.hostQ.drop 1 }

/-- The coming cycle has no host access and `rst` = 0. -/
def withQuietHost (s : State) : State := { s with hostQ := ⟨false, none⟩ :: s.hostQ.drop 1 }

/-- The engine stands at a position, in a sample cycle if it is a wait, with no delay running. -/
def atPosition (st : EngSt) (stepIx : BitVec 3) (s : State) : State :=
  { s with st := st, stepIx := stepIx, wph := false, dcnt := 0, gop := .none }

/-- The engine's next cycle issues this request: the position whose operation it is (R22), and for a delay the
parameter of R7 that is its length (R95; log entry 5). Other words are issued at no position. -/
def withRequest (w : ReqWord) (s : State) : State :=
  let q := withQuietHost s
  match decodeGtaReq w with
  | .instr .setLow => atPosition .reset 0 q
  | .instr .setHigh => atPosition .reset 2 q
  | .instr .isLow => atPosition .ackWait1 0 q
  | .instr .isHigh => atPosition .bitLoop 2 q
  | .instr (.delayUs n) => { atPosition .bitLoop 1 q with cfg := { q.cfg with sampleDelayUs := n } }
  | .instr (.delayMs n) =>
    { atPosition .reset 1 q with cfg := { q.cfg with resetLowMs11 := n, resetLowMs22 := n } }
  | _ => s

end Sys2Proof.Machine
end

