-- ==== Sys2Proof/Machine/Step.lean ====
section
/-! DEFINITION. One step is one clock cycle; and the state whose next step runs a given word of the opcode table. -/

namespace Sys2Proof.Machine

/-- One step of the machine: one clock cycle (R5). -/
def step (s : State) : Host.Outcome State Fault Refusal := clockCycle s

/-- s with a word of spec/opcode_table.json where the next step takes it: a HOSTBUS word (up to 16 bits) on the host
bus, a GTAREQ word as the request of the engine's position. -/
def State.withFetchWord (s : State) (nbits w : Nat) : State :=
  if nbits ≤ 16 then withHostAccess (BitVec.ofNat 13 w) s else withRequest (BitVec.ofNat 19 w) s

end Sys2Proof.Machine
end

