-- ==== Sys2Proof/Safety.lean ====
section
/-! DEFINITION. The terms statements use: the invariant of a block that has been reset, the host inputs a run takes
without a stop, and the bounds on how long an exchange lasts (41_protocol_engine.md rule R185). -/

namespace Sys2Proof.Machine

/-- The primitive and the length in cycles of the delay an operation waits for, if it waits for one (R161, R167,
R169, R177). -/
def delayOf (op : EngOp) (s : State) : Option (GtaOp × Nat) :=
  match op with
  | .resetLow => some (.delayMs, s.cfg.msCycles (s.cfg.resetLowMs s.fam))
  | .release => some (.delayUs, s.cfg.usCycles (s.cfg.releaseUs s.fam))
  | .sampleDelay => some (.delayUs, s.cfg.usCycles s.cfg.sampleDelayUs)
  | .wait _ => if s.wph then some (.delayUs, s.cfg.usCycles s.cfg.pollUs) else none
  | .setLow | .setHigh | .sample | .transit | .validate => none

/-- Does the delay the operation waits for end in the coming cycle? It is in its last cycle, or is one cycle long
(R123, R128). -/
def delayEnds (op : EngOp) (s : State) : Prop :=
  ∃ g len, delayOf op s = some (g, len) ∧ (s.dcnt = 1 ∨ s.dcnt = 0 ∧ len = 1)

/-- "The operation completes without error" in the coming cycle, the condition of R160's rows: a pin primitive in its
issue cycle without a pin fault, and for a wait one that matches; a delay in its last cycle; the transit and VALIDATE at
once (R161, R166-R179, R221). -/
def opCompletes (op : EngOp) (s : State) : Prop :=
  match op with
  | .setLow | .setHigh | .sample => s.dcnt = 0 ∧ s.draw.pinFault = false
  | .resetLow | .release | .sampleDelay => delayEnds op s
  | .wait level => s.dcnt = 0 ∧ s.wph = false ∧ s.draw.pinFault = false ∧ s.seen = level
  | .transit | .validate => True

/-- Is the operation a bounded wait? (R161) -/
def EngOp.isWait : EngOp → Bool
  | .wait _ => true
  | .setLow | .resetLow | .setHigh | .release | .transit | .sampleDelay | .sample | .validate => false

/-- Does the operation issue a pin primitive? (R130, R271) -/
def EngOp.usesPin : EngOp → Bool
  | .setLow | .setHigh | .sample | .wait _ => true
  | .resetLow | .release | .transit | .sampleDelay | .validate => false

/-- The bits received by the time the engine is in a phase (R27, R174, R179, R182). -/
def bitsInPhase (ph : EngSt) (n : Nat) : Prop :=
  match ph with
  | .idle | .reset | .ackWait1 | .ackWait2 => n = 0
  | .bitLoop => n < 40
  | .validate => n = 40
  | .done | .failed => False

/-- Which operation an outcome can stand beside as the last one of the exchange (R271). -/
def lastOpFits (r : Result) (op : Option EngOp) : Prop :=
  match r with
  | .ok => op = some .validate
  | .pinFault => ∃ o, op = some o ∧ o.usesPin = true
  | .timeout => ∃ o, op = some o ∧ o.isWait = true
  | .checksumMismatch => op = some .validate

/-- What holds of the block from its first reset on. -/
structure State.Inv (s : State) : Prop where
  /-- the parameters are in R7's ranges -/
  params : s.cfg.InRange
  /-- the synchroniser has S stages (R35) -/
  syncLength : s.sync.length = s.cfg.syncStages
  /-- a busy position is one of R22's pairs -/
  position : s.busy = true → s.op ≠ none
  /-- `ph` is the state while busy (R23) -/
  phase : s.busy = true → s.ph = s.st
  /-- IDLE is as reset left it (R22, R41) -/
  idle : s.st = .idle → s.stepIx = 0 ∧ s.ph = .idle
  /-- after an exchange, POS names its last operation (R23, R70) -/
  lastOp : s.ended = true → lastOpFits s.result (opAt s.ph s.stepIx)
  /-- a wait's counter stays below the budget (R25) -/
  iterBound : s.busy = true → s.iter.toNat < s.cfg.timeoutIters
  /-- no wait runs outside the wait operations (R25, R26) -/
  noWait : s.busy = true → (∀ level, s.op ≠ some (.wait level)) → s.iter = 0 ∧ s.wph = false
  /-- `gop` is 0 when no delay runs (R37) -/
  gtaIdle : s.dcnt = 0 → s.gop = .none
  /-- a running delay is the one the operation waits for (R36, R37) -/
  gtaDelay : s.dcnt ≠ 0 → s.busy = true ∧
    ∃ op len, s.op = some op ∧ delayOf op s = some (s.gop, len) ∧ s.dcnt < len
  /-- how many bits there are in each phase (R27) -/
  bits : bitsInPhase s.ph s.bitcnt.toNat
  /-- only received bits stand in the shift register (R180, R225) -/
  shiftRegister : s.sr.toNat < 2 ^ s.bitcnt.toNat
  /-- DATA is 0 but after an OK exchange (R33, R67) -/
  dataHidden : s.st ≠ .done → s.data = .zero
  /-- after an OK exchange, DATA is the payload and its checksum fits (R221) -/
  dataOk : s.st = .done → s.data = ⟨frameByte s.sr 0, frameByte s.sr 1, frameByte s.sr 2, frameByte s.sr 3⟩ ∧
    chk s.data.d0 s.data.d1 s.data.d2 s.data.d3 = frameByte s.sr 4
  /-- RESULT is an error exactly in FAILED (R31, R276) -/
  outcome : s.result = .ok ↔ s.st ≠ .failed
  /-- PINERR is 0 but after a pin fault (R32) -/
  pinError : s.result ≠ .pinFault → s.pinerr = 0
  /-- the pad pulls the line low only from RESET's `SET_LOW` to its `SET_HIGH` (R166-R168, R326) -/
  padLow : s.padLow = true → s.ph = .reset ∧ s.stepIx.toNat ≤ 2
  /-- between the two it does (R167) -/
  padHeld : s.ph = .reset → s.stepIx.toNat = 1 ∨ s.stepIx.toNat = 2 → s.padLow = true

/-- A run of n cycles, up to the first stop. -/
def runFor : Nat → State → Res
  | 0, s => .next s
  | n + 1, s => andThen (step s) (runFor n)

/-- A host input that stops nothing: `rst` = 0, and no reserved word (R98). -/
def HostIn.plain (h : HostIn) : Bool :=
  !h.rst && match h.access with
  | none => true
  | some w =>
    match decodeHostBus w with
    | .instr _ | .readCmd | .readOnlyWrite => true
    | .reservedCommand | .reservedAddress => false

/-- The host inputs of the coming n cycles are plain. -/
def State.plainFor (s : State) (n : Nat) : Prop := ∀ h ∈ s.hostQ.take n, h.plain = true

/-- T_max of R185, for a family. -/
def maxCycles (c : Config) (f : Family) : Nat :=
  2 + (c.resetLowMs f).toNat * 1000 * c.cycPerUs + (c.releaseUs f).toNat * c.cycPerUs +
    84 * c.timeoutIters * c.iterCyc + 40 * (c.sampleDelayUs.toNat * c.cycPerUs + 1) + 2

/-- The cycles from START acceptance to the end of an exchange that no sensor answers, W1 matching at its first
sample and W2 running out (R165-R171, R273). -/
def noSensorCycles (c : Config) (f : Family) : Nat :=
  2 + (c.resetLowMs f).toNat * 1000 * c.cycPerUs + (c.releaseUs f).toNat * c.cycPerUs + 1 +
    c.timeoutIters * c.iterCyc

/-- The host command that asks for an exchange with a family (R242, R243). -/
def startWord : Family → BusWord
  | .dht11 => 0x1001
  | .dht22 => 0x1003

/-- The coming n draws are scheduled, the line high and no pin fault in each: nothing answers (R143, R171). -/
def State.noSensorFor (s : State) (n : Nat) : Prop :=
  n ≤ s.envQ.length ∧ ∀ d ∈ s.envQ.take n, d.line = true ∧ d.pinFault = false

/-- The durations of a sensor's waveform, in microseconds: T_RESP, T_AL, T_AH, T_BL, T_H0, T_H1, T_EL (R141).
DESIGN CHOICE (log 16): each is a whole number of microseconds, where R141 and R322 do not say so. -/
structure SensorTiming where
  resp : Nat
  ackLow : Nat
  ackHigh : Nat
  bitLow : Nat
  zeroHigh : Nat
  oneHigh : Nat
  endLow : Nat
deriving DecidableEq, Repr

/-- The vector sensor model (R142). -/
def SensorTiming.vector : SensorTiming := ⟨30, 80, 80, 50, 27, 70, 50⟩

/-- x0 = `RELEASE_US`·C - S: the point of the line, counted from the release time, that W1's first sample observes
(R322). -/
def firstObserved (c : Config) (f : Family) : Int :=
  (c.releaseUs f).toNat * c.cycPerUs - c.syncStages

/-- Platform condition A, phase alignment: W1 matches in the sensor's T_RESP high and not later (R322). -/
abbrev SensorTiming.PhaseAligned (t : SensorTiming) (c : Config) (f : Family) : Prop :=
  (0 ≤ firstObserved c f → firstObserved c f < t.resp * c.cycPerUs) ∧
  (firstObserved c f < 0 → c.pollUs.toNat < t.resp)

/-- Platform condition B, timeout budget: every wait can outlast the segment it waits through (R323). -/
abbrev SensorTiming.BudgetSuffices (t : SensorTiming) (c : Config) : Prop :=
  (max t.resp (max t.ackLow (max t.ackHigh (max t.bitLow t.oneHigh))) + c.pollUs.toNat) * c.cycPerUs <
    c.timeoutIters * c.iterCyc

/-- Where, counted from the first cycle of a bit's high, BITLOOP step 2 observes the line, when the bit's `WAIT_HIGH`
matched δ cycles late (R324). -/
def bitSamplePoint (c : Config) (δ : Nat) : Nat := c.sampleDelayUs.toNat * c.cycPerUs + 1 + δ

/-- Platform condition C, the bit-sample window: (S1) to (S4), for one length of a 0 bit's high (R324). -/
abbrev SensorTiming.SampleWindow (t : SensorTiming) (c : Config) : Prop :=
  t.zeroHigh * c.cycPerUs ≤ bitSamplePoint c 0 ∧
  bitSamplePoint c (c.pollUs.toNat * c.cycPerUs) < t.oneHigh * c.cycPerUs ∧
  bitSamplePoint c (c.pollUs.toNat * c.cycPerUs) < (t.zeroHigh + t.bitLow) * c.cycPerUs ∧
  c.iterCyc + 1 < t.bitLow * c.cycPerUs

/-- The durations meet the platform conditions that constrain them (R322-R324; 93_implementation_defined.md U3),
for durations that are whole microseconds (log 16) and one T_H0 for all 0 bits (log 15). -/
abbrev SensorTiming.Fits (t : SensorTiming) (c : Config) (f : Family) : Prop :=
  t.PhaseAligned c f ∧ t.BudgetSuffices c ∧ t.SampleWindow c

/-- The levels of the waveform contract for a frame, each with its duration: high until the answer, low and high to
acknowledge, then for each bit, the most significant of byte 0 first, low and a high as long as the bit says, and a
final low (R141). Each duration is a whole number of microseconds (DESIGN CHOICE, log 16). -/
def sensorSegments (t : SensorTiming) (frame : BitVec 40) : List (Bool × Nat) :=
  [(true, t.resp), (false, t.ackLow), (true, t.ackHigh)] ++
  (List.range 40).flatMap (fun k =>
    [(false, t.bitLow), (true, if frame.getLsbD (39 - k) then t.oneHigh else t.zeroHigh)]) ++
  [(false, t.endLow)]

/-- The environment's draws in the n cycles from a START on, when a sensor answers it: high until the release time
τ_r, which is 3 + `RESET_LOW_MS`·1000·C cycles after the START, the waveform from there, then high, and never a pin
fault (R141, R143, R168). Its boundaries fall on multiples of C from τ_r, as R142 says of the vector sensor alone (log
16). -/
def sensorDraws (c : Config) (f : Family) (t : SensorTiming) (frame : BitVec 40) (n : Nat) : List EnvDraw :=
  ((List.replicate (3 + c.msCycles (c.resetLowMs f)) true ++
    (sensorSegments t frame).flatMap (fun seg => List.replicate (seg.2 * c.cycPerUs) seg.1) ++
    List.replicate n true).take n).map fun l => ⟨l, false, 0⟩

/-- Erase what a host read leaves behind: the port's value and the host's own inputs. -/
def State.hostErased (s : State) : State := { s with busRdata := 0, hostQ := [] }

/-- A host input that asks for no START: no access, or any access but a START command (R240). -/
def HostIn.noStart (h : HostIn) : Bool :=
  match h.access with
  | none => true
  | some w => !(busWe w && busAddr w == 0 && cmdReserved (busData w) == 0 && cmdStart (busData w))

end Sys2Proof.Machine
end

