-- ==== Sys2Proof/Certificates/Slice0/Obligations.lean ====
section
/-! DEFINITION. The statements of this row, from the spec's numbered rules. OBLIGATIONS.json lists them. -/

open Sys2Proof Sys2Proof.Machine

/-! ## Encodings -/

/-- Decoding the encoding of an instruction gives it back, every operand at every value (R96, R97). That the free bits
of a read and of a NOP are operands is the model's choice (log entry 11). -/
def Obligations.DecodeOfEncode : Prop := ∀ i : Instr, decode (encode i) = some i

/-- A word that decodes to an instruction is that instruction's encoding, so each word has one meaning (R96, R97). That
it holds of words with a free bit set (a read's data field, bit 1 of a NOP) is the model's choice: the free bits are
operands (log entry 11). -/
def Obligations.EncodeOfDecode : Prop := ∀ (p : PortWord) (i : Instr), decode p = some i → encode i = p

/-- "The rows are disjoint": no word matches two rows of an opcode map (R96; the GTA map of R97 alike). -/
def Obligations.OpcodeRowsAreDisjoint : Prop :=
  (∀ w : BusWord, hostRows.Pairwise fun a b => ¬ (a.accepts w = true ∧ b.accepts w = true)) ∧
  (∀ w : ReqWord, gtaRows.Pairwise fun a b => ¬ (a.accepts w = true ∧ b.accepts w = true))

/-- R98's table: every word outside the opcode maps falls in its class, and a delay of length 0 is refused. -/
def Obligations.ReservedWordsAreClassified : Prop :=
  (∀ d : Byte, cmdReserved d ≠ 0 → decodeHostBus (busWord true 0 d) = .reservedCommand) ∧
  (∀ (a : BitVec 4) (d : Byte), 1 ≤ a.toNat → a.toNat ≤ 9 →
    decodeHostBus (busWord true a d) = .readOnlyWrite) ∧
  (∀ d : Byte, decodeHostBus (busWord false 0 d) = .readCmd) ∧
  (∀ (we : Bool) (a : BitVec 4) (d : Byte), 0xA ≤ a.toNat →
    decodeHostBus (busWord we a d) = .reservedAddress) ∧
  (∀ n : BitVec 16, decodeGtaReq (reqWord 0 n) = .noRequest ∧ decodeGtaReq (reqWord 7 n) = .reserved) ∧
  (∀ (op : BitVec 3) (n : BitVec 16), 1 ≤ op.toNat → op.toNat ≤ 4 → n ≠ 0 →
    decodeGtaReq (reqWord op n) = .reserved) ∧
  (∀ s : State, exec (.delayUs 0) s = .refused (.reservedRequest (reqWord 5 0)) ∧
    exec (.delayMs 0) s = .refused (.reservedRequest (reqWord 6 0)))

/-- Words the spec writes out decode to what it says they are (R96, R97, R101). -/
def Obligations.ListedWordsDecode : Prop :=
  decode (.hostBus 0x1000) = some (.nop false) ∧ decode (.hostBus 0x1002) = some (.nop true) ∧
  decode (.hostBus 0x1001) = some .readDht11 ∧ decode (.hostBus 0x1003) = some .readDht22 ∧
  decode (.hostBus 0x0100) = some (.rdStatus 0) ∧ decode (.hostBus 0x0900) = some (.rdBitcnt 0) ∧
  decode (.gtaReq 0x10000) = some .setLow ∧ decode (.gtaReq 0x40000) = some .isHigh ∧
  decode (.gtaReq 0x50023) = some (.delayUs 35) ∧ decode (.gtaReq 0x60012) = some (.delayMs 18)

/-! ## How a step runs an instruction -/

/-- A host access that decodes to an instruction runs as exec of it on the state at the start of the cycle; then the
engine has its cycle, and the cycle ends (R61-R63, R79). -/
def Obligations.StepRunsHostAccess : Prop :=
  ∀ (s : State) (w : BusWord) (i : Instr), s.hostIn = ⟨false, some w⟩ → decodeHostBus w = .instr i →
    step s = andThen (exec i s) fun s1 => andThen (engineAfterHost s s1) fun s2 => .next (endCycle s s2)

/-- In the first cycle of a primitive the word on the request port decodes to what the operation asks for, and the
step runs exec of it; the engine then reacts to the response (R123, R160). -/
def Obligations.StepRunsEngineRequest : Prop :=
  ∀ (s : State) (op : EngOp) (i : Instr), s.hostIn = ⟨false, none⟩ → s.busy = true → s.dcnt = 0 →
    s.op = some op → requestOf op s = some i →
    decodeGtaReq s.request = .instr i ∧
    step s = andThen (exec i (presentRequest s.request (driveData 0 s))) fun t =>
      .next (endCycle s (engineReact op t))

/-! ## Host commands and register reads -/

/-- NOP changes no state, at any time, whatever bit 1 is (R246). -/
def Obligations.NopChangesNoState : Prop :=
  ∀ (f : Bool) (s : State), encode (.nop f) = .hostBus (if f then 0x1002 else 0x1000) ∧
    exec (.nop f) s = .next { s with busRdata := 0 }

/-- START: accepted with its family when BUSY = 0, ignored when BUSY = 1 (R241-R244). -/
def Obligations.StartClearsTheExchange : Prop :=
  ∀ (s : State) (f : Family) (i : Instr),
    (f = .dht11 ∧ i = .readDht11) ∨ (f = .dht22 ∧ i = .readDht22) →
    encode i = .hostBus (startWord f) ∧
    (s.busy = true → exec i s = .next { s with busRdata := 0 }) ∧
    (s.busy = false → ∃ t, exec i s = .next t ∧
      t = { s with
        fam := f, st := .reset, stepIx := 0, ph := .reset, result := .ok, pinerr := 0, data := ⟨0, 0, 0, 0⟩
        bitcnt := 0, sr := 0, b := false, iter := 0, wph := false, busRdata := 0 } ∧
      t.busy = true ∧ t.ended = false ∧ t.op = some .setLow)

/-- A START while BUSY = 1 leaves the whole cycle as it is without an access (R244). -/
def Obligations.StartWhileBusyIsLost : Prop :=
  ∀ (s : State) (f : Family) (q : List HostIn), s.busy = true →
    step { s with hostQ := ⟨false, some (startWord f)⟩ :: q } = step { s with hostQ := ⟨false, none⟩ :: q }

/-- The cases of a CMD write, in R240's order: reset wins; reserved; NOP; START while busy; START accepted. -/
def Obligations.CmdWritesAreClassified : Prop :=
  ∀ (s : State) (v : Byte) (q : List HostIn),
    (step { s with hostQ := ⟨true, some (busWord true 0 v)⟩ :: q } = step { s with hostQ := ⟨true, none⟩ :: q }) ∧
    (cmdReserved v ≠ 0 → memWrite 0 v s = s ∧ step { s with hostQ := ⟨false, some (busWord true 0 v)⟩ :: q } =
      .refused (.reservedCommand (busWord true 0 v))) ∧
    (cmdReserved v = 0 → cmdStart v = false ∨ s.busy = true → memWrite 0 v s = s ∧
      step { s with hostQ := ⟨false, some (busWord true 0 v)⟩ :: q } =
        step { s with hostQ := ⟨false, none⟩ :: q }) ∧
    (cmdReserved v = 0 → cmdStart v = true → s.busy = false →
      memWrite 0 v s = acceptStart (cmdFamily v) s ∧ ∃ t,
        step { s with hostQ := ⟨false, some (busWord true 0 v)⟩ :: q } = .next t ∧ t.st = .reset ∧ t.stepIx = 0 ∧
          t.fam = cmdFamily v)

/-- The register map of R64, row by row: the value read, that CMD alone can be written, and the reset column. -/
def Obligations.RegisterMapReads : Prop :=
  (∀ s : State, memRead 0x0 s = 0 ∧
    memRead 0x1 s = (0 : BitVec 3) ++ famBit s.fam ++ s.result.code ++ BitVec.ofBool s.ended ++
      BitVec.ofBool s.busy ∧
    memRead 0x2 s = s.data.d0 ∧ memRead 0x3 s = s.data.d1 ∧ memRead 0x4 s = s.data.d2 ∧
    memRead 0x5 s = s.data.d3 ∧ memRead 0x6 s = s.pinerr ∧
    memRead 0x7 s = (0 : BitVec 5) ++ s.st.code ∧ memRead 0x8 s = (0 : BitVec 2) ++ s.stepIx ++ s.ph.code ∧
    memRead 0x9 s = (0 : BitVec 2) ++ s.bitcnt ∧ ∀ a : BitVec 4, 0xA ≤ a.toNat → memRead a s = 0) ∧
  (∀ (a : BitVec 4) (v : Byte) (s : State), a ≠ 0 → memWrite a v s = s) ∧
  ∀ a : BitVec 4, memRead a State.reset = 0

/-- The edges of the register map: CMD reads 0x00; a write to 0x1-0x9 changes nothing; 0xA-0xF read 0x00 and ignore
writes in the hardware, and the model refuses them (R72, R73, R256, R257). -/
def Obligations.RegisterMapEdges : Prop :=
  ∀ (s : State) (a : BitVec 4) (we : Bool) (d : Byte) (q : List HostIn),
    memRead 0 s = 0 ∧
    step { s with hostQ := ⟨false, some (busWord false 0 d)⟩ :: q } = step { s with hostQ := ⟨false, none⟩ :: q } ∧
    (1 ≤ a.toNat → memWrite a d s = s) ∧
    (1 ≤ a.toNat → a.toNat ≤ 9 → step { s with hostQ := ⟨false, some (busWord true a d)⟩ :: q } =
      step { s with hostQ := ⟨false, none⟩ :: q }) ∧
    (0xA ≤ a.toNat → memRead a s = 0 ∧ step { s with hostQ := ⟨false, some (busWord we a d)⟩ :: q } =
      .refused (.reservedAddress (busWord we a d)))

/-- A read gives the register value at the start of the cycle and changes nothing else, with `rst` = 0 or 1; without
a read `bus_rdata` is 0x00 (R62, R76). -/
def Obligations.ReadsOnlyDriveTheBus : Prop :=
  (∀ (s : State) (rst : Bool) (w : BusWord) (q : List HostIn), busWe w = false →
    decodeHostBus w ≠ .reservedAddress →
    step { s with hostQ := ⟨rst, some w⟩ :: q } =
      andThen (step { s with hostQ := ⟨rst, none⟩ :: q }) fun t =>
        .next { t with busRdata := memRead (busAddr w) s }) ∧
  (∀ s t : State, step s = .next t → (∀ w, s.hostIn.access = some w → busWe w = true) → t.busRdata = 0)

/-- RD STATUS, and the values STATUS takes (R247). -/
def Obligations.RdStatusValue : Prop :=
  ∀ (s : State) (d : Byte), encode (.rdStatus 0) = .hostBus 0x0100 ∧
    exec (.rdStatus d) s = .next { s with
      busRdata := (0 : BitVec 3) ++ famBit s.fam ++ s.result.code ++ BitVec.ofBool s.ended ++
        BitVec.ofBool s.busy } ∧
    State.reset.statusByte = 0x00 ∧ ¬ (s.busy = true ∧ s.ended = true) ∧
    (s.Inv → (s.busy = true → s.result = .ok ∧ s.statusByte = if s.fam = .dht11 then 0x01 else 0x11) ∧
      (s.ended = true → s.statusByte ∈
        if s.fam = .dht11 then [0x02, 0x06, 0x0A, 0x0E] else [0x12, 0x16, 0x1A, 0x1E]))

/-- RD DATA0..DATA3, which read 0x00 while busy and after a failed exchange, and the first four frame bytes after OK
(R248-R251). -/
def Obligations.RdDataValues : Prop :=
  ∀ (s : State) (d : Byte),
    (encode (.rdData0 0) = .hostBus 0x0200 ∧ exec (.rdData0 d) s = .next { s with busRdata := s.data.d0 }) ∧
    (encode (.rdData1 0) = .hostBus 0x0300 ∧ exec (.rdData1 d) s = .next { s with busRdata := s.data.d1 }) ∧
    (encode (.rdData2 0) = .hostBus 0x0400 ∧ exec (.rdData2 d) s = .next { s with busRdata := s.data.d2 }) ∧
    (encode (.rdData3 0) = .hostBus 0x0500 ∧ exec (.rdData3 d) s = .next { s with busRdata := s.data.d3 }) ∧
    (s.Inv → s.busy = true ∨ s.st = .failed → s.data = ⟨0, 0, 0, 0⟩) ∧
    (s.Inv → s.st = .done → s.data = ⟨frameByte s.sr 0, frameByte s.sr 1, frameByte s.sr 2, frameByte s.sr 3⟩)

/-- RD PINERR; a pin fault with code 0x00 is told by RESULT, not by PINERR (R252). -/
def Obligations.RdPinerrValue : Prop :=
  ∀ (s : State) (d : Byte), encode (.rdPinerr 0) = .hostBus 0x0600 ∧
    exec (.rdPinerr d) s = .next { s with busRdata := s.pinerr } ∧
    (s.Inv → s.pinerr ≠ 0 → s.result = .pinFault) ∧
    (failExchange (.pinFault 0) s).pinerr = 0 ∧ (failExchange (.pinFault 0) s).result = .pinFault

/-- RD STATE, and the values it takes (R253). -/
def Obligations.RdStateValue : Prop :=
  ∀ (s : State) (d : Byte), encode (.rdState 0) = .hostBus 0x0700 ∧
    exec (.rdState d) s = .next { s with busRdata := (0 : BitVec 5) ++ s.st.code } ∧
    State.reset.stateByte = 0 ∧
    (s.busy = true → 1 ≤ s.stateByte.toNat ∧ s.stateByte.toNat ≤ 5) ∧
    (s.Inv → s.ended = true → s.stateByte = if s.result = .ok then 6 else 7)

/-- RD POS, and what it names after an exchange (R254). -/
def Obligations.RdPosValue : Prop :=
  ∀ (s : State) (d : Byte), encode (.rdPos 0) = .hostBus 0x0800 ∧
    exec (.rdPos d) s = .next { s with busRdata := (0 : BitVec 2) ++ s.stepIx ++ s.ph.code } ∧
    State.reset.posByte = 0 ∧
    (s.Inv → s.ended = true → s.result = .ok ∨ s.result = .checksumMismatch → s.posByte = 0x05) ∧
    (s.Inv → s.ended = true → s.result = .pinFault → s.posByte ∈ ([0x01, 0x11, 0x21, 0x02, 0x0A, 0x12, 0x04, 0x14, 0x1C] : List Byte)) ∧
    (s.Inv → s.ended = true → s.result = .timeout → s.posByte ∈ ([0x21, 0x02, 0x0A, 0x12, 0x04, 0x1C] : List Byte))

/-- RD BITCNT, 40 after VALIDATE and the bits committed before a failure otherwise (R255). -/
def Obligations.RdBitcntValue : Prop :=
  ∀ (s : State) (d : Byte), encode (.rdBitcnt 0) = .hostBus 0x0900 ∧
    exec (.rdBitcnt d) s = .next { s with busRdata := (0 : BitVec 2) ++ s.bitcnt } ∧
    (s.Inv → s.ended = true → s.result = .ok ∨ s.result = .checksumMismatch → s.bitcntByte = 40) ∧
    (s.Inv → s.ended = true → s.result = .pinFault ∨ s.result = .timeout → s.bitcntByte.toNat < 40)

/-! ## GTA primitives -/

/-- `SET_LOW` in its issue cycle (R124). -/
def Obligations.SetLowDrivesThePad : Prop :=
  ∀ s : State, encode .setLow = .gtaReq 0x10000 ∧
    (s.draw.pinFault = true → exec .setLow s = .next { s with gtaRsp := ⟨true, true, false, s.draw.pinFaultCode⟩ }) ∧
    (s.draw.pinFault = false → exec .setLow s = .next { s with gtaRsp := ⟨true, false, false, 0⟩, padLow := true })

/-- `SET_HIGH` in its issue cycle; after it the line is the environment's (R125). -/
def Obligations.SetHighReleasesThePad : Prop :=
  ∀ s : State, encode .setHigh = .gtaReq 0x20000 ∧
    (s.draw.pinFault = true → exec .setHigh s = .next { s with gtaRsp := ⟨true, true, false, s.draw.pinFaultCode⟩ }) ∧
    (s.draw.pinFault = false → ∃ t, exec .setHigh s = .next t ∧
      t = { s with gtaRsp := ⟨true, false, false, 0⟩, padLow := false } ∧ t.line = t.draw.line)

/-- `IS_LOW` in its issue cycle (R126). -/
def Obligations.IsLowAnswersFromSeen : Prop :=
  ∀ s : State, encode .isLow = .gtaReq 0x30000 ∧
    (s.draw.pinFault = true → exec .isLow s = .next { s with gtaRsp := ⟨true, true, false, s.draw.pinFaultCode⟩ }) ∧
    (s.draw.pinFault = false → exec .isLow s = .next { s with gtaRsp := ⟨true, false, !s.seen, 0⟩ })

/-- `IS_HIGH` in its issue cycle, and that `IS_LOW` would answer the other way (R127). -/
def Obligations.IsHighAnswersFromSeen : Prop :=
  ∀ s : State, encode .isHigh = .gtaReq 0x40000 ∧
    (s.draw.pinFault = true → exec .isHigh s = .next { s with gtaRsp := ⟨true, true, false, s.draw.pinFaultCode⟩ }) ∧
    (s.draw.pinFault = false → exec .isHigh s = .next { s with gtaRsp := ⟨true, false, s.seen, 0⟩ } ∧
      exec .isLow s = .next { s with gtaRsp := ⟨true, false, !s.seen, 0⟩ })

/-- `DELAY_US n` takes n·C cycles: DONE in the last and in no other, no ERR whatever is drawn, `dcnt` 0 at the end
(R128, R131). That `gop` is stored as 0 at the end is the model's reading of R37 (log entry 6). -/
def Obligations.DelayUsTakesExactlyItsLength : Prop :=
  ∀ (n : BitVec 16) (s : State), n ≠ 0 → 1 ≤ s.cfg.cycPerUs → s.dcnt = 0 → s.gop = .none →
    encode (.delayUs n) = .gtaReq (0x50000 ||| n.setWidth 19) ∧
    ∃ t, exec (.delayUs n) s = .next t ∧
      (∀ k < n.toNat * s.cfg.cycPerUs, (gtaNoRequest^[k] t).gtaRsp =
        if k + 1 = n.toNat * s.cfg.cycPerUs then ⟨true, false, false, 0⟩ else ⟨false, false, false, 0⟩) ∧
      (∀ k < n.toNat * s.cfg.cycPerUs, (gtaNoRequest^[k] t).dcnt = n.toNat * s.cfg.cycPerUs - 1 - k) ∧
      (gtaNoRequest^[n.toNat * s.cfg.cycPerUs - 1] t).gop = .none ∧
      t = { s with gtaRsp := t.gtaRsp, dcnt := t.dcnt, gop := t.gop }

/-- `DELAY_MS n` takes n·1000·C cycles (R129, R131). That `gop` is stored as 0 at the end is the model's reading of R37
(log entry 6). -/
def Obligations.DelayMsTakesExactlyItsLength : Prop :=
  ∀ (n : BitVec 16) (s : State), n ≠ 0 → 1 ≤ s.cfg.cycPerUs → s.dcnt = 0 → s.gop = .none →
    encode (.delayMs n) = .gtaReq (0x60000 ||| n.setWidth 19) ∧
    ∃ t, exec (.delayMs n) s = .next t ∧
      (∀ k < n.toNat * 1000 * s.cfg.cycPerUs, (gtaNoRequest^[k] t).gtaRsp =
        if k + 1 = n.toNat * 1000 * s.cfg.cycPerUs then ⟨true, false, false, 0⟩ else ⟨false, false, false, 0⟩) ∧
      (∀ k < n.toNat * 1000 * s.cfg.cycPerUs,
        (gtaNoRequest^[k] t).dcnt = n.toNat * 1000 * s.cfg.cycPerUs - 1 - k) ∧
      (gtaNoRequest^[n.toNat * 1000 * s.cfg.cycPerUs - 1] t).gop = .none ∧
      t = { s with gtaRsp := t.gtaRsp, dcnt := t.dcnt, gop := t.gop }

/-- The response words of R94, as the vectors of the spec write them (R124-R128). -/
def Obligations.ResponseWords : Prop :=
  (∀ (r : GtaRsp), r.word.getLsbD 10 = r.done ∧ r.word.getLsbD 9 = r.err ∧ r.word.getLsbD 8 = r.val ∧
    r.word.extractLsb' 0 8 = r.code) ∧
  GtaRsp.ok.word = 0x400 ∧ (GtaRsp.answer true).word = 0x500 ∧ (GtaRsp.answer false).word = 0x400 ∧
  (GtaRsp.error 0x5A).word = 0x65A

/-- `pin_fault` and its code are sampled only in the issue cycle of a pin primitive: in any other cycle the step does
not depend on them (R130, R131). -/
def Obligations.PinFaultSampledInIssueCyclesOnly : Prop :=
  ∀ (s : State) (l f f' : Bool) (k k' : Byte) (q : List EnvDraw),
    reqOp s.request = 0 ∨ 5 ≤ (reqOp s.request).toNat →
    step { s with envQ := ⟨l, f, k⟩ :: q } = step { s with envQ := ⟨l, f', k'⟩ :: q }

/-- `gop`, the primitive in execution (R37, as log entry 6 reads it): in an issue cycle the primitive that is issued, in a
delay's later cycles that delay, and none when nothing is in execution. -/
def Obligations.GopNamesThePrimitiveInExecution : Prop :=
  (∀ (s : State) (op : EngOp), s.op = some op → s.dcnt = 0 → s.gopInCycle =
    match op with
    | .setLow => .setLow
    | .resetLow => .delayMs
    | .setHigh => .setHigh
    | .release | .sampleDelay => .delayUs
    | .wait level => if s.wph then .delayUs else if level then .isHigh else .isLow
    | .sample => .isHigh
    | .transit | .validate => .none) ∧
  (∀ s : State, s.Inv → s.dcnt ≠ 0 → s.gopInCycle = s.gop ∧
    ∃ op len, s.op = some op ∧ delayOf op s = some (s.gopInCycle, len) ∧ s.dcnt < len) ∧
  (∀ s : State, s.Inv → s.busy = false → s.gopInCycle = .none) ∧
  (∀ s t : State, s.Inv → step s = .next t → t.gtaRsp.done = true → t.gop = .none)

/-- The line is a wired-AND, and `SET_LOW` in one cycle makes it low in the next (R121). -/
def Obligations.LineIsWiredAnd : Prop :=
  (∀ s : State, s.line = if s.padLow = true then false else s.draw.line) ∧
  (∀ s : State, s.hostIn.plain = true → s.st = .reset → s.stepIx = 0 → s.dcnt = 0 → s.draw.pinFault = false →
    ∃ t, step s = .next t ∧ t.padLow = true ∧ t.line = false)

/-- The engine sees the line of S cycles ago, or the line itself when S = 0 (R35, R122). -/
def Obligations.SeenIsTheLineSCyclesAgo : Prop :=
  ∀ s t : State, s.sync.length = s.cfg.syncStages → (∀ h ∈ s.hostQ.take s.cfg.syncStages, h.rst = false) →
    runFor s.cfg.syncStages s = .next t → t.seen = s.line

/-! ## The engine -/

/-- `ph` follows `st` while busy and keeps the last busy state otherwise (R23). -/
def Obligations.PhKeepsTheLastBusyState : Prop :=
  ∀ s t : State, step s = .next t → s.hostIn.rst = false → t.ph = if t.busy = true then t.st else s.ph

/-- (RESET, 0) `SET_LOW` and (RESET, 2) `SET_HIGH`: one cycle each, to the next step, or PinFault with the pad as it
was (R166, R168). -/
def Obligations.ResetPulsePadSteps : Prop :=
  ∀ (s : State) (ix : BitVec 3) (low : Bool) (w : ReqWord),
    (ix = 0 ∧ low = true ∧ w = 0x10000) ∨ (ix = 2 ∧ low = false ∧ w = 0x20000) →
    s.hostIn = ⟨false, none⟩ → s.st = .reset → s.stepIx = ix → s.dcnt = 0 →
    (s.draw.pinFault = false → step s = .next (endCycle s { s with
      busRdata := 0, gtaReq := w, gtaRsp := ⟨true, false, false, 0⟩, padLow := low, stepIx := ix + 1 })) ∧
    (s.draw.pinFault = true → step s = .next (endCycle s { s with
      busRdata := 0, gtaReq := w, gtaRsp := ⟨true, true, false, s.draw.pinFaultCode⟩
      st := .failed, result := .pinFault, pinerr := s.draw.pinFaultCode }))

/-- The three fixed delays hold their position for exactly their length and then go to the next step: `RESET_LOW_MS`,
`RELEASE_US` and `SAMPLE_DELAY_US` (R167, R169, R177). -/
def Obligations.FixedDelaysHoldTheirPosition : Prop :=
  ∀ (s : State) (len : Nat),
    (s.st = .reset ∧ s.stepIx = 1 ∧ len = (s.cfg.resetLowMs s.fam).toNat * 1000 * s.cfg.cycPerUs) ∨
    (s.st = .reset ∧ s.stepIx = 3 ∧ len = (s.cfg.releaseUs s.fam).toNat * s.cfg.cycPerUs) ∨
    (s.st = .bitLoop ∧ s.stepIx = 1 ∧ len = s.cfg.sampleDelayUs.toNat * s.cfg.cycPerUs) →
    s.Inv → s.dcnt = 0 → s.plainFor len →
    (∀ k < len, ∃ u, runFor k s = .next u ∧ u.st = s.st ∧ u.stepIx = s.stepIx ∧ u.padLow = s.padLow) ∧
    ∃ t, runFor len s = .next t ∧ t.st = s.st ∧ t.stepIx = s.stepIx + 1 ∧ t.dcnt = 0 ∧ t.padLow = s.padLow

/-- A bounded wait that never matches issues exactly N samples and N polling delays, and ends in Timeout at the end
of its N·ITER_CYC cycles, not before (R161, R162, R273). ARG 0 beside OP = 0 is the model's choice (log entry 14). -/
def Obligations.WaitTimesOutAfterNIterations : Prop :=
  ∀ (s : State) (level : Bool), s.Inv → s.busy = true → s.op = some (.wait level) → s.iter = 0 → s.wph = false →
    s.plainFor (s.cfg.timeoutIters * s.cfg.iterCyc) →
    (∀ i < s.cfg.timeoutIters, ∀ u, runFor (i * s.cfg.iterCyc) s = .next u →
      u.seen = !level ∧ u.draw.pinFault = false) →
    (∀ k < s.cfg.timeoutIters * s.cfg.iterCyc, ∃ u, runFor k s = .next u ∧ u.st = s.st ∧ u.stepIx = s.stepIx ∧
      u.request = if k % s.cfg.iterCyc = 0 then (if level then 0x40000 else 0x30000)
        else if k % s.cfg.iterCyc = 1 then reqWord 5 s.cfg.pollUs else 0) ∧
    ∃ t, runFor (s.cfg.timeoutIters * s.cfg.iterCyc) s = .next t ∧ t.st = .failed ∧ t.result = .timeout ∧
      t.pinerr = 0 ∧ t.stepIx = s.stepIx ∧ t.ph = s.ph ∧ t.bitcnt = s.bitcnt

/-- A bounded wait whose samples before iteration j do not match and whose sample j matches succeeds after
j·ITER_CYC + 1 cycles; if that sample faults it ends in PinFault instead, match or not (R161, R162, R278). -/
def Obligations.WaitEndsAtItsFirstMatchOrFault : Prop :=
  ∀ (s u : State) (level : Bool) (j : Nat), s.Inv → s.busy = true → s.op = some (.wait level) → s.iter = 0 →
    s.wph = false → j < s.cfg.timeoutIters → s.plainFor (j * s.cfg.iterCyc + 1) →
    (∀ i < j, ∀ v, runFor (i * s.cfg.iterCyc) s = .next v → v.seen = !level ∧ v.draw.pinFault = false) →
    runFor (j * s.cfg.iterCyc) s = .next u →
    u.iter.toNat = j ∧ u.wph = false ∧
    (u.draw.pinFault = false → u.seen = level → ∃ t, runFor (j * s.cfg.iterCyc + 1) s = .next t ∧ t.iter = 0 ∧
      t.wph = false ∧ t.st = (advance s).st ∧ t.stepIx = (advance s).stepIx ∧ t.bitcnt = (advance s).bitcnt ∧
      t.sr = (advance s).sr) ∧
    (u.draw.pinFault = true → ∃ t, runFor (j * s.cfg.iterCyc + 1) s = .next t ∧ t.st = .failed ∧
      t.result = .pinFault ∧ t.pinerr = u.draw.pinFaultCode ∧ t.stepIx = s.stepIx ∧ t.ph = s.ph)

/-- (ACKWAIT2, 0): a transit of one cycle into the bit loop, without a request (R174), its ARG the model's choice (log
entry 14). -/
def Obligations.AckTransitTakesOneCycle : Prop :=
  ∀ s : State, s.hostIn = ⟨false, none⟩ → s.st = .ackWait2 → s.stepIx = 0 → s.dcnt = 0 →
    step s = .next (endCycle s { s with
      busRdata := 0, gtaReq := 0, gtaRsp := ⟨false, false, false, 0⟩, st := .bitLoop, stepIx := 0 })

/-- (BITLOOP, 2): the bit sample writes `b` and goes to step 3, or ends in PinFault with `b` as it was (R178). -/
def Obligations.BitSampleWritesB : Prop :=
  ∀ s : State, s.hostIn = ⟨false, none⟩ → s.st = .bitLoop → s.stepIx = 2 → s.dcnt = 0 →
    (s.draw.pinFault = false → step s = .next (endCycle s { s with
      busRdata := 0, gtaReq := 0x40000, gtaRsp := ⟨true, false, s.seen, 0⟩, b := s.seen, stepIx := 3 })) ∧
    (s.draw.pinFault = true → step s = .next (endCycle s { s with
      busRdata := 0, gtaReq := 0x40000, gtaRsp := ⟨true, true, false, s.draw.pinFaultCode⟩
      st := .failed, result := .pinFault, pinerr := s.draw.pinFaultCode }))

/-- (BITLOOP, 3): in the cycle in which the closing `WAIT_LOW` matches the bit is committed; after the 40th the engine
goes to VALIDATE (R179, R182). -/
def Obligations.ClosingWaitCommitsTheBit : Prop :=
  ∀ s : State, s.hostIn = ⟨false, none⟩ → s.st = .bitLoop → s.stepIx = 3 → s.wph = false → s.dcnt = 0 →
    s.draw.pinFault = false → s.seen = false →
    step s = .next (endCycle s { s with
      busRdata := 0, gtaReq := 0x30000, gtaRsp := ⟨true, false, true, 0⟩, iter := 0
      sr := s.sr.extractLsb' 0 39 ++ BitVec.ofBool s.b, bitcnt := s.bitcnt + 1
      st := if s.bitcnt.toNat + 1 = 40 then .validate else .bitLoop, stepIx := 0 })

/-- After 40 commits bit k of the transmission stands at `sr[39 - k]`; frame byte j holds bits 8j..8j+7, the first
received the most significant (R180, R181). -/
def Obligations.FortyBitsPackMostSignificantFirst : Prop :=
  ∀ bits : List Bool, bits.length = 40 →
    (∀ k < 40, (bits.foldl shiftIn 0).getLsbD (39 - k) = bits.getD k false) ∧
    (∀ j < 5, ∀ i < 8, (frameByte (bits.foldl shiftIn 0) j).getLsbD (7 - i) = bits.getD (8 * j + i) false) ∧
    (∀ j < 5, (frameByte (bits.foldl shiftIn 0) j).toNat =
      ∑ i ∈ Finset.range 8, (bits.getD (8 * j + i) false).toNat * 2 ^ (7 - i))

/-- The engine's position changes only by a row of R160's table, each under its condition, and an operation that
completes does change it. A row of success needs the operation to complete without error in the cycle: what that is,
operation by operation, is opCompletes. -/
def Obligations.PositionsFollowTheTransitionTable : Prop :=
  ∀ s t : State, s.Inv → step s = .next t →
    (t.st = s.st ∧ t.stepIx = s.stepIx ∧ ∀ op, s.op = some op → ¬ opCompletes op s) ∨
    (s.hostIn.rst = true ∧ t.st = .idle ∧ t.stepIx = 0) ∨
    (s.hostIn.rst = false ∧ s.busy = false ∧ (∃ f, s.hostIn.access = some (startWord f) ∧ t.fam = f) ∧
      t.st = .reset ∧ t.stepIx = 0) ∨
    (s.st = .reset ∧ (s.stepIx = 0 ∧ opCompletes .setLow s ∨ s.stepIx = 1 ∧ opCompletes .resetLow s ∨
      s.stepIx = 2 ∧ opCompletes .setHigh s ∨ s.stepIx = 3 ∧ opCompletes .release s) ∧ t.st = .reset ∧
      t.stepIx = s.stepIx + 1) ∨
    (s.st = .reset ∧ s.stepIx = 4 ∧ opCompletes (.wait true) s ∧ t.st = .ackWait1 ∧ t.stepIx = 0) ∨
    (s.st = .ackWait1 ∧ (s.stepIx = 0 ∧ opCompletes (.wait false) s ∨ s.stepIx = 1 ∧ opCompletes (.wait true) s) ∧
      t.st = .ackWait1 ∧ t.stepIx = s.stepIx + 1) ∨
    (s.st = .ackWait1 ∧ s.stepIx = 2 ∧ opCompletes (.wait false) s ∧ t.st = .ackWait2 ∧ t.stepIx = 0) ∨
    (s.st = .ackWait2 ∧ s.stepIx = 0 ∧ t.st = .bitLoop ∧ t.stepIx = 0) ∨
    (s.st = .bitLoop ∧ (s.stepIx = 0 ∧ opCompletes (.wait true) s ∨ s.stepIx = 1 ∧ opCompletes .sampleDelay s ∨
      s.stepIx = 2 ∧ opCompletes .sample s) ∧ t.st = .bitLoop ∧ t.stepIx = s.stepIx + 1) ∨
    (s.st = .bitLoop ∧ s.stepIx = 3 ∧ opCompletes (.wait false) s ∧ s.bitcnt.toNat + 1 < 40 ∧
      t.bitcnt = s.bitcnt + 1 ∧ t.st = .bitLoop ∧ t.stepIx = 0) ∨
    (s.st = .bitLoop ∧ s.stepIx = 3 ∧ opCompletes (.wait false) s ∧ s.bitcnt.toNat + 1 = 40 ∧ t.bitcnt = 40 ∧
      t.st = .validate ∧ t.stepIx = 0) ∨
    (s.st = .validate ∧ s.stepIx = 0 ∧ t.st = .done ∧ t.stepIx = 0 ∧ t.result = .ok ∧
      chk (frameByte s.sr 0) (frameByte s.sr 1) (frameByte s.sr 2) (frameByte s.sr 3) = frameByte s.sr 4) ∨
    (s.st = .validate ∧ s.stepIx = 0 ∧ t.st = .failed ∧ t.stepIx = 0 ∧ t.result = .checksumMismatch ∧
      chk (frameByte s.sr 0) (frameByte s.sr 1) (frameByte s.sr 2) (frameByte s.sr 3) ≠ frameByte s.sr 4) ∨
    ((∃ op, s.op = some op ∧ op.usesPin = true ∧ (op.isWait = true → s.wph = false)) ∧ s.dcnt = 0 ∧
      s.draw.pinFault = true ∧ t.st = .failed ∧ t.stepIx = s.stepIx ∧ t.result = .pinFault ∧
      t.pinerr = s.draw.pinFaultCode) ∨
    ((∃ level, s.op = some (.wait level) ∧ s.wph = true ∧ delayEnds (.wait level) s) ∧
      s.iter.toNat + 1 = s.cfg.timeoutIters ∧ t.st = .failed ∧ t.stepIx = s.stepIx ∧ t.result = .timeout)

/-- Every exchange ends within T_max cycles of START acceptance, whatever the environment draws; in VC that is 36264
(R185). -/
def Obligations.EveryExchangeEndsWithinTmax : Prop :=
  (∀ f, maxCycles Config.vc f = 36264) ∧ ∀ (s : State) (f : Family), s.Inv → s.busy = false → s.hostIn = ⟨false, some (startWord f)⟩ →
    s.plainFor (1 + maxCycles s.cfg f) →
    ∃ k t, k ≤ maxCycles s.cfg f ∧ runFor (1 + k) s = .next t ∧ t.ended = true

/-- With no sensor on the line an exchange ends in Timeout at W2 after exactly its N iterations: busy until then, and
nothing received (R165-R171, R273). -/
def Obligations.NoSensorTimesOutAtW2 : Prop :=
  ∀ (s : State) (f : Family), s.Inv → s.busy = false → s.hostIn = ⟨false, some (startWord f)⟩ →
    s.plainFor (1 + noSensorCycles s.cfg f) → s.noSensorFor (1 + noSensorCycles s.cfg f) →
    s.cfg.syncStages ≤ (s.cfg.releaseUs f).toNat * s.cfg.cycPerUs →
    (∀ k < noSensorCycles s.cfg f, ∃ u, runFor (1 + k) s = .next u ∧ u.busy = true) ∧
    ∃ t, runFor (1 + noSensorCycles s.cfg f) s = .next t ∧ t.st = .failed ∧ t.result = .timeout ∧
      t.posByte = 0x02 ∧ t.bitcnt = 0 ∧ t.data = ⟨0, 0, 0, 0⟩ ∧ t.pinerr = 0 ∧ t.fam = f ∧ t.padLow = false

/-- In VC, with the vector sensor answering, the block receives every frame bit for bit and reports OK with the payload
if and only if the fifth byte is the checksum of the first four, else ChecksumMismatch with no byte visible (R142,
R222). -/
def Obligations.VectorSensorFrameIsDelivered : Prop :=
  ∀ (s : State) (f : Family) (frame : BitVec 40), s.Inv → s.cfg = .vc → s.busy = false →
    s.hostIn = ⟨false, some (startWord f)⟩ → s.plainFor (1 + maxCycles .vc f) →
    s.envQ.take (1 + maxCycles .vc f) = sensorDraws .vc f .vector frame (1 + maxCycles .vc f) →
    ∃ k t, k ≤ maxCycles .vc f ∧ runFor (1 + k) s = .next t ∧ t.ended = true ∧ t.fam = f ∧ t.bitcnt = 40 ∧
      t.sr = frame ∧
      if chk (frameByte frame 0) (frameByte frame 1) (frameByte frame 2) (frameByte frame 3) = frameByte frame 4
      then t.result = .ok ∧
        t.data = ⟨frameByte frame 0, frameByte frame 1, frameByte frame 2, frameByte frame 3⟩
      else t.result = .checksumMismatch ∧ t.data = ⟨0, 0, 0, 0⟩

/-- The platform conditions: what (S1)-(S3) say of the point at which a bit's sample observes the line, for every delay δ
of the wait before it, and the bounds the spec works out for VC and the vector sensor (R322-R324). The durations are whole microseconds, the
model's choice (log 16). -/
def Obligations.PlatformConditionsBoundTheSamples : Prop :=
  (∀ (c : Config) (t : SensorTiming) (δ : Nat), t.SampleWindow c → δ ≤ c.pollUs.toNat * c.cycPerUs →
    t.zeroHigh * c.cycPerUs ≤ bitSamplePoint c δ ∧
    bitSamplePoint c δ < (t.zeroHigh + t.bitLow) * c.cycPerUs ∧ bitSamplePoint c δ < t.oneHigh * c.cycPerUs) ∧
  (∀ f, SensorTiming.vector.Fits .vc f ∧ firstObserved .vc f = 18 ∧ bitSamplePoint .vc 0 = 36 ∧
    bitSamplePoint .vc (Config.vc.pollUs.toNat * Config.vc.cycPerUs) = 37) ∧
  (∀ h : Nat, 26 ≤ h → h ≤ 28 → ({ SensorTiming.vector with zeroHigh := h } : SensorTiming).SampleWindow .vc) ∧
  (∀ r : BitVec 16, SensorTiming.vector.PhaseAligned { Config.vc with releaseUs11 := r } .dht11 ↔ r.toNat ≤ 31) ∧
  (∀ n : Nat, SensorTiming.vector.BudgetSuffices { Config.vc with timeoutIters := n } ↔ 41 ≤ n)

/-! ## Checksum, failure, and what stays -/

/-- CHK is the sum modulo 256, and three wrapping additions give the same (R220). -/
def Obligations.ChecksumIsTheSumModulo256 : Prop :=
  ∀ x0 x1 x2 x3 : Byte,
    (chk x0 x1 x2 x3).toNat = (x0.toNat + x1.toNat + x2.toNat + x3.toNat) % 256 ∧
    (chk x0 x1 x2 x3).toNat = (((x0.toNat + x1.toNat) % 256 + x2.toNat) % 256 + x3.toNat) % 256

/-- (VALIDATE, 0): the payload and OK if the fifth byte is the checksum of the first four, else ChecksumMismatch and
no byte visible (R221). ARG 0 on the request port, without a request, is the model's choice (log entry 14). -/
def Obligations.ValidateComparesAndCommits : Prop :=
  ∀ (s : State) (f0 f1 f2 f3 f4 : Byte), s.hostIn = ⟨false, none⟩ → s.st = .validate → s.stepIx = 0 → s.dcnt = 0 →
    s.sr = f0 ++ f1 ++ f2 ++ f3 ++ f4 →
    (chk f0 f1 f2 f3 = f4 → step s = .next (endCycle s { s with
      busRdata := 0, gtaReq := 0, gtaRsp := ⟨false, false, false, 0⟩
      data := ⟨f0, f1, f2, f3⟩, result := .ok, st := .done })) ∧
    (chk f0 f1 f2 f3 ≠ f4 → step s = .next (endCycle s { s with
      busRdata := 0, gtaReq := 0, gtaRsp := ⟨false, false, false, 0⟩
      result := .checksumMismatch, st := .failed }))

/-- Failure entry: a step into FAILED records the code, and the pin-fault code for PinFault only; everything else of
the exchange stays (R276). -/
def Obligations.FailureEntryKeepsTheRest : Prop :=
  ∀ s t : State, step s = .next t → s.busy = true → t.st = .failed →
    t.result ≠ .ok ∧ (t.result = .pinFault → t.pinerr = s.draw.pinFaultCode) ∧
    (t.result ≠ .pinFault → t.pinerr = s.pinerr) ∧
    t.stepIx = s.stepIx ∧ t.ph = s.ph ∧ t.bitcnt = s.bitcnt ∧ t.data = s.data ∧ t.fam = s.fam ∧
    t.padLow = s.padLow ∧ t.iter = s.iter ∧ t.wph = s.wph ∧ t.sr = s.sr ∧ t.b = s.b

/-- A pin primitive whose issue cycle draws a fault fails the exchange in that cycle, whatever level is seen (R272,
R278). -/
def Obligations.PinFaultFailsTheExchange : Prop :=
  ∀ (s : State) (op : EngOp), s.hostIn.plain = true → s.busy = true → s.op = some op → op.usesPin = true →
    s.dcnt = 0 → (op.isWait = true → s.wph = false) → s.draw.pinFault = true →
    ∃ t, step s = .next t ∧ t.st = .failed ∧ t.result = .pinFault ∧ t.pinerr = s.draw.pinFaultCode ∧
      t.padLow = s.padLow ∧ t.b = s.b ∧ t.data = s.data

/-- In DONE and FAILED only START or reset changes anything but the synchroniser and the ports (R186, R277). ARG 0 on the
request port, without a request, is the model's choice (log entry 14). -/
def Obligations.EndedBlockIsStable : Prop :=
  ∀ s : State, s.Inv → s.ended = true → s.hostIn.plain = true → s.hostIn.noStart = true →
    ∃ v, step s = .next { s with
      busRdata := v, gtaReq := 0, gtaRsp := ⟨false, false, false, 0⟩, sync := s.syncNext
      hostQ := s.hostQ.drop 1, envQ := s.envQ.drop 1, drawIx := s.drawIx + 1 }

/-- DATA changes only at START acceptance, to zero, and at VALIDATE on a match, to the frame's first four bytes, in
the cycle that makes DONE rise (R80, R187). -/
def Obligations.NoPartialResult : Prop :=
  ∀ s t : State, step s = .next t → s.hostIn.rst = false →
    t.data = s.data ∨ (s.busy = false ∧ t.st = .reset ∧ t.data = ⟨0, 0, 0, 0⟩) ∨
    (s.st = .validate ∧ t.st = .done ∧ t.result = .ok ∧
      t.data = ⟨frameByte s.sr 0, frameByte s.sr 1, frameByte s.sr 2, frameByte s.sr 3⟩ ∧
      chk (frameByte s.sr 0) (frameByte s.sr 1) (frameByte s.sr 2) (frameByte s.sr 3) = frameByte s.sr 4)

/-- After a failure the pad pulls the line low only if `SET_HIGH` failed, or `SET_LOW` failed with the pad already low;
a failed `SET_HIGH` does leave it low (R326). -/
def Obligations.FailedPadIsLowOnlyAfterAPadFault : Prop :=
  ∀ s : State, s.Inv → s.st = .failed →
    (s.padLow = true → s.posByte = 0x11 ∨ s.posByte = 0x01) ∧ (s.posByte = 0x11 → s.padLow = true)

/-! ## Reset, and what holds of every run -/

/-- A cycle with `rst` = 1 leaves every element at R41's value, whatever the state; the parameters stay, and the
synchroniser has S stages of any value (R41, R310). -/
def Obligations.ResetPutsEveryElementAtItsValue : Prop :=
  ∀ s : State, s.hostIn.rst = true →
    (∀ w, s.hostIn.access = some w → busWe w = false → decodeHostBus w ≠ .reservedAddress) →
    ∃ t, step s = .next t ∧ t.st = .idle ∧ t.stepIx = 0 ∧ t.ph = .idle ∧ t.iter = 0 ∧ t.wph = false ∧
      t.bitcnt = 0 ∧ t.sr = 0 ∧ t.b = false ∧ t.fam = .dht11 ∧ t.result = .ok ∧ t.pinerr = 0 ∧
      t.data = ⟨0, 0, 0, 0⟩ ∧ t.padLow = false ∧ t.sync.length = s.cfg.syncStages ∧ t.dcnt = 0 ∧
      t.gop = .none ∧ t.cfg = s.cfg ∧ ∀ a : BitVec 4, memRead a t = 0

/-- In a cycle with `rst` = 1 a host write has no effect, a host read returns the value from the start of the cycle,
and what the engine, the GTA and the environment would have done has no effect (R278, R311). That the third clause holds
of the ports GTAREQ and GTARSP too is the model's choice: they are quiet in a reset cycle (log entry 7). -/
def Obligations.ResetWinsOverEverything : Prop :=
  (∀ (s : State) (w : BusWord) (q : List HostIn), busWe w = true →
    step { s with hostQ := ⟨true, some w⟩ :: q } = step { s with hostQ := ⟨true, none⟩ :: q }) ∧
  (∀ (s : State) (w : BusWord) (q : List HostIn), busWe w = false → decodeHostBus w ≠ .reservedAddress →
    ∃ t, step { s with hostQ := ⟨true, some w⟩ :: q } = .next t ∧ t.busRdata = memRead (busAddr w) s) ∧
  (∀ s s' : State, s.hostIn = ⟨true, none⟩ → s.hostQ = s'.hostQ → s.envQ.drop 1 = s'.envQ.drop 1 →
    s.drawIx = s'.drawIx → s.cfg = s'.cfg → step s = step s')

/-- The state after reset has R41's values, and the outputs that follow from them. That its parameters are VC's is the
model's choice (R9, log entry 1); the synchroniser's value is too (log entry 4) and is not stated. -/
def Obligations.ResetStateHasTheStatedValues : Prop :=
  State.reset.st = .idle ∧ State.reset.stepIx = 0 ∧ State.reset.ph = .idle ∧ State.reset.iter = 0 ∧
  State.reset.wph = false ∧ State.reset.bitcnt = 0 ∧ State.reset.sr = 0 ∧ State.reset.b = false ∧
  State.reset.fam = .dht11 ∧ State.reset.result = .ok ∧ State.reset.pinerr = 0 ∧
  State.reset.data = ⟨0, 0, 0, 0⟩ ∧ State.reset.padLow = false ∧ State.reset.dcnt = 0 ∧
  State.reset.gop = .none ∧ State.reset.cfg = Config.vc ∧ State.reset.oBusy = false ∧
  State.reset.oDone = false ∧ State.reset.pinDriveLow = false

/-- STATUS, STATE, POS and BITCNT field by field; the outputs are STATUS's flags; BUSY and DONE are never both 1 (R38,
R66, R69-R71, R258). -/
def Obligations.StatusFieldsAndOutputs : Prop :=
  ∀ s : State, s.statusByte.getLsbD 0 = s.oBusy ∧ s.statusByte.getLsbD 1 = s.oDone ∧
    s.statusByte.extractLsb' 2 2 = s.result.code ∧ s.statusByte.extractLsb' 4 1 = famBit s.fam ∧
    s.statusByte.extractLsb' 5 3 = 0 ∧ ¬ (s.oBusy = true ∧ s.oDone = true) ∧
    s.stateByte.extractLsb' 0 3 = s.st.code ∧ s.stateByte.extractLsb' 3 5 = 0 ∧
    s.posByte.extractLsb' 0 3 = s.ph.code ∧ s.posByte.extractLsb' 3 3 = s.stepIx ∧
    s.posByte.extractLsb' 6 2 = 0 ∧
    s.bitcntByte.extractLsb' 0 6 = s.bitcnt ∧ s.bitcntByte.extractLsb' 6 2 = 0

/-- The invariant holds after reset. -/
def Obligations.InvAtReset : Prop := State.reset.Inv

/-- Every step keeps the invariant, from every state that has it. -/
def Obligations.StepKeepsInv : Prop := ∀ s t : State, s.Inv → step s = .next t → t.Inv

/-- Host reads, NOPs and writes to read-only registers, in any number and spacing, do not change the exchange: two
hosts that ask for no START see the block go the same way (R76, R259). -/
def Obligations.PollingDoesNotDisturbTheExchange : Prop :=
  ∀ (s t : State) (q q' : List HostIn) (n : Nat),
    (∀ h ∈ q.take n, h.plain = true ∧ h.noStart = true) →
    (∀ h ∈ q'.take n, h.plain = true ∧ h.noStart = true) →
    runFor n { s with hostQ := q } = .next t →
    ∃ t', runFor n { s with hostQ := q' } = .next t' ∧ t'.hostErased = t.hostErased

/-- No step in a state with the invariant faults, and it refuses only a reserved word of the host (R270): every host
operation is defined in every state. -/
def Obligations.OnlyReservedWordsStopTheBlock : Prop :=
  ∀ s : State, s.Inv → s.hostIn.plain = true → ∃ t, step s = .next t
end

