-- ==== Sys2Proof/Laws/Decode.lean ====
section
/-! SUPPORT. What the decoder can answer on each port: the host's port gives host accesses only, the request port
gives primitives only, and the words the engine presents decode to what it asks for. -/

namespace Sys2Proof

/-- Is the instruction a GTA primitive (format GTAREQ)? -/
def Instr.isPrimitive : Instr → Bool
  | .setLow | .setHigh | .isLow | .isHigh | .delayUs _ | .delayMs _ => true
  | .nop _ | .readDht11 | .readDht22 | .rdStatus _ | .rdData0 _ | .rdData1 _ | .rdData2 _ | .rdData3 _
  | .rdPinerr _ | .rdState _ | .rdPos _ | .rdBitcnt _ => false

theorem decodeHostBus_row {w : BusWord} {i : Instr} (h : decodeHostBus w = .instr i) :
    ∃ r ∈ hostRows, r.accepts w = true ∧ i = r.build w := by
  unfold decodeHostBus at h
  split at h
  · rename_i r hr
    exact ⟨r, List.mem_of_find?_eq_some hr, by simpa using List.find?_some hr, by cases h; rfl⟩
  · unfold reservedHostClass at h
    split at h <;> [cases h; skip]
    split at h <;> [skip; cases h]
    split at h <;> cases h

theorem decodeGtaReq_row {w : ReqWord} {i : Instr} (h : decodeGtaReq w = .instr i) :
    ∃ r ∈ gtaRows, r.accepts w = true ∧ i = r.build w := by
  unfold decodeGtaReq at h
  split at h
  · rename_i r hr
    exact ⟨r, List.mem_of_find?_eq_some hr, by simpa using List.find?_some hr, by cases h; rfl⟩
  · split at h <;> cases h

theorem decodeHostBus_not_primitive {w : BusWord} {i : Instr} (h : decodeHostBus w = .instr i) :
    i.isPrimitive = false := by
  obtain ⟨r, hr, -, rfl⟩ := decodeHostBus_row h
  simp only [hostRows, List.mem_cons, List.not_mem_nil, or_false] at hr
  rcases hr with rfl | rfl | rfl | rfl | rfl | rfl | rfl | rfl | rfl | rfl | rfl | rfl <;> rfl

theorem decodeGtaReq_primitive {w : ReqWord} {i : Instr} (h : decodeGtaReq w = .instr i) :
    i.isPrimitive = true := by
  obtain ⟨r, hr, -, rfl⟩ := decodeGtaReq_row h
  simp only [gtaRows, List.mem_cons, List.not_mem_nil, or_false] at hr
  rcases hr with rfl | rfl | rfl | rfl | rfl | rfl <;> rfl

/-- The OP field decides a mask of OP's bits, whatever ARG is. -/
theorem reqWord_and_opMask (op : BitVec 3) (n : BitVec 16) : reqWord op n &&& 0x70000 = reqWord op 0 := by
  apply BitVec.eq_of_getLsbD_eq
  intro k hk
  simp only [reqWord, BitVec.getLsbD_and, BitVec.getLsbD_append]
  by_cases h16 : k < 16
  · have hm : (0x70000#19).getLsbD k = false := by interval_cases k <;> decide
    simp [hm, h16]
  · have hm : (0x70000#19).getLsbD k = true := by interval_cases k <;> first | omega | decide
    simp [hm, h16]

theorem reqArg_reqWord (op : BitVec 3) (n : BitVec 16) : reqArg (reqWord op n) = n := by
  apply BitVec.eq_of_getLsbD_eq
  intro k hk
  simp only [reqArg, reqWord, BitVec.getLsbD_extractLsb', BitVec.getLsbD_append]
  simp [hk]

theorem reqOp_reqWord (op : BitVec 3) (n : BitVec 16) : reqOp (reqWord op n) = op := by
  apply BitVec.eq_of_getLsbD_eq
  intro k hk
  simp only [reqOp, reqWord, BitVec.getLsbD_extractLsb', BitVec.getLsbD_append]
  simp [hk]

theorem reqWord_and_allOnes (op : BitVec 3) (n : BitVec 16) : reqWord op n &&& 0x7FFFF = reqWord op n := by
  have h : (0x7FFFF : ReqWord) = BitVec.allOnes 19 := by decide
  rw [h, BitVec.and_allOnes]

theorem reqWord_ne_of_op {op : BitVec 3} {w : ReqWord} (n : BitVec 16) (h : op ≠ reqOp w) : reqWord op n ≠ w := by
  rintro rfl
  exact h (reqOp_reqWord op n).symm

theorem decodeGtaReq_delayUs (n : BitVec 16) : decodeGtaReq (reqWord 5 n) = .instr (.delayUs n) := by
  have h (w : ReqWord) (hw : (5 : BitVec 3) ≠ reqOp w) : (reqWord 5 n == w) = false :=
    beq_eq_false_iff_ne.mpr (reqWord_ne_of_op n hw)
  have h5 : (reqWord 5 0 == (0x50000 : ReqWord)) = true := by decide
  simp only [decodeGtaReq, gtaRows, List.find?, GtaRow.accepts, reqWord_and_allOnes, reqWord_and_opMask,
    h 0x10000 (by decide), h 0x20000 (by decide), h 0x30000 (by decide), h 0x40000 (by decide), h5, reqArg_reqWord]

theorem decodeGtaReq_delayMs (n : BitVec 16) : decodeGtaReq (reqWord 6 n) = .instr (.delayMs n) := by
  have h (w : ReqWord) (hw : (6 : BitVec 3) ≠ reqOp w) : (reqWord 6 n == w) = false :=
    beq_eq_false_iff_ne.mpr (reqWord_ne_of_op n hw)
  have h5 : (reqWord 6 0 == (0x50000 : ReqWord)) = false := by decide
  have h6 : (reqWord 6 0 == (0x60000 : ReqWord)) = true := by decide
  simp only [decodeGtaReq, gtaRows, List.find?, GtaRow.accepts, reqWord_and_allOnes, reqWord_and_opMask,
    h 0x10000 (by decide), h 0x20000 (by decide), h 0x30000 (by decide), h 0x40000 (by decide), h5, h6, reqArg_reqWord]

namespace Machine

/-- The word the engine presents for an operation decodes to the primitive it asks for (R123). -/
theorem decodeGtaReq_requestWord {op : EngOp} {s : State} {i : Instr} (h : requestOf op s = some i) :
    decodeGtaReq (requestWord i) = .instr i := by
  cases op with
  | setLow => cases h; decide
  | setHigh => cases h; decide
  | sample => cases h; decide
  | transit => cases h
  | validate => cases h
  | resetLow => cases h; exact decodeGtaReq_delayMs _
  | release => cases h; exact decodeGtaReq_delayUs _
  | sampleDelay => cases h; exact decodeGtaReq_delayUs _
  | wait level =>
    simp only [requestOf] at h
    split at h
    · cases h; exact decodeGtaReq_delayUs _
    · split at h <;> · cases h; decide

end Machine

end Sys2Proof
end

