-- ==== Sys2Proof/Laws/State.lean ====
section
/-! SUPPORT. What each record update of the machine does to each field of State: one lemma a field, true by rfl, so
that a proof about an operation unfolds no record update. -/

namespace Sys2Proof.Machine

/-! ### driveData -/

@[simp] theorem driveData_cfg (v : Byte) (s : State) : (driveData v s).cfg = s.cfg := rfl
@[simp] theorem driveData_st (v : Byte) (s : State) : (driveData v s).st = s.st := rfl
@[simp] theorem driveData_stepIx (v : Byte) (s : State) : (driveData v s).stepIx = s.stepIx := rfl
@[simp] theorem driveData_ph (v : Byte) (s : State) : (driveData v s).ph = s.ph := rfl
@[simp] theorem driveData_iter (v : Byte) (s : State) : (driveData v s).iter = s.iter := rfl
@[simp] theorem driveData_wph (v : Byte) (s : State) : (driveData v s).wph = s.wph := rfl
@[simp] theorem driveData_bitcnt (v : Byte) (s : State) : (driveData v s).bitcnt = s.bitcnt := rfl
@[simp] theorem driveData_sr (v : Byte) (s : State) : (driveData v s).sr = s.sr := rfl
@[simp] theorem driveData_b (v : Byte) (s : State) : (driveData v s).b = s.b := rfl
@[simp] theorem driveData_fam (v : Byte) (s : State) : (driveData v s).fam = s.fam := rfl
@[simp] theorem driveData_result (v : Byte) (s : State) : (driveData v s).result = s.result := rfl
@[simp] theorem driveData_pinerr (v : Byte) (s : State) : (driveData v s).pinerr = s.pinerr := rfl
@[simp] theorem driveData_data (v : Byte) (s : State) : (driveData v s).data = s.data := rfl
@[simp] theorem driveData_padLow (v : Byte) (s : State) : (driveData v s).padLow = s.padLow := rfl
@[simp] theorem driveData_sync (v : Byte) (s : State) : (driveData v s).sync = s.sync := rfl
@[simp] theorem driveData_dcnt (v : Byte) (s : State) : (driveData v s).dcnt = s.dcnt := rfl
@[simp] theorem driveData_gop (v : Byte) (s : State) : (driveData v s).gop = s.gop := rfl
@[simp] theorem driveData_busRdata (v : Byte) (s : State) : (driveData v s).busRdata = v := rfl
@[simp] theorem driveData_gtaReq (v : Byte) (s : State) : (driveData v s).gtaReq = s.gtaReq := rfl
@[simp] theorem driveData_gtaRsp (v : Byte) (s : State) : (driveData v s).gtaRsp = s.gtaRsp := rfl
@[simp] theorem driveData_hostQ (v : Byte) (s : State) : (driveData v s).hostQ = s.hostQ := rfl
@[simp] theorem driveData_envQ (v : Byte) (s : State) : (driveData v s).envQ = s.envQ := rfl
@[simp] theorem driveData_drawIx (v : Byte) (s : State) : (driveData v s).drawIx = s.drawIx := rfl

/-! ### presentRequest -/

@[simp] theorem presentRequest_cfg (w : ReqWord) (s : State) : (presentRequest w s).cfg = s.cfg := rfl
@[simp] theorem presentRequest_st (w : ReqWord) (s : State) : (presentRequest w s).st = s.st := rfl
@[simp] theorem presentRequest_stepIx (w : ReqWord) (s : State) : (presentRequest w s).stepIx = s.stepIx := rfl
@[simp] theorem presentRequest_ph (w : ReqWord) (s : State) : (presentRequest w s).ph = s.ph := rfl
@[simp] theorem presentRequest_iter (w : ReqWord) (s : State) : (presentRequest w s).iter = s.iter := rfl
@[simp] theorem presentRequest_wph (w : ReqWord) (s : State) : (presentRequest w s).wph = s.wph := rfl
@[simp] theorem presentRequest_bitcnt (w : ReqWord) (s : State) : (presentRequest w s).bitcnt = s.bitcnt := rfl
@[simp] theorem presentRequest_sr (w : ReqWord) (s : State) : (presentRequest w s).sr = s.sr := rfl
@[simp] theorem presentRequest_b (w : ReqWord) (s : State) : (presentRequest w s).b = s.b := rfl
@[simp] theorem presentRequest_fam (w : ReqWord) (s : State) : (presentRequest w s).fam = s.fam := rfl
@[simp] theorem presentRequest_result (w : ReqWord) (s : State) : (presentRequest w s).result = s.result := rfl
@[simp] theorem presentRequest_pinerr (w : ReqWord) (s : State) : (presentRequest w s).pinerr = s.pinerr := rfl
@[simp] theorem presentRequest_data (w : ReqWord) (s : State) : (presentRequest w s).data = s.data := rfl
@[simp] theorem presentRequest_padLow (w : ReqWord) (s : State) : (presentRequest w s).padLow = s.padLow := rfl
@[simp] theorem presentRequest_sync (w : ReqWord) (s : State) : (presentRequest w s).sync = s.sync := rfl
@[simp] theorem presentRequest_dcnt (w : ReqWord) (s : State) : (presentRequest w s).dcnt = s.dcnt := rfl
@[simp] theorem presentRequest_gop (w : ReqWord) (s : State) : (presentRequest w s).gop = s.gop := rfl
@[simp] theorem presentRequest_busRdata (w : ReqWord) (s : State) : (presentRequest w s).busRdata = s.busRdata := rfl
@[simp] theorem presentRequest_gtaReq (w : ReqWord) (s : State) : (presentRequest w s).gtaReq = w := rfl
@[simp] theorem presentRequest_gtaRsp (w : ReqWord) (s : State) : (presentRequest w s).gtaRsp = s.gtaRsp := rfl
@[simp] theorem presentRequest_hostQ (w : ReqWord) (s : State) : (presentRequest w s).hostQ = s.hostQ := rfl
@[simp] theorem presentRequest_envQ (w : ReqWord) (s : State) : (presentRequest w s).envQ = s.envQ := rfl
@[simp] theorem presentRequest_drawIx (w : ReqWord) (s : State) : (presentRequest w s).drawIx = s.drawIx := rfl

/-! ### respond -/

@[simp] theorem respond_cfg (r : GtaRsp) (s : State) : (respond r s).cfg = s.cfg := rfl
@[simp] theorem respond_st (r : GtaRsp) (s : State) : (respond r s).st = s.st := rfl
@[simp] theorem respond_stepIx (r : GtaRsp) (s : State) : (respond r s).stepIx = s.stepIx := rfl
@[simp] theorem respond_ph (r : GtaRsp) (s : State) : (respond r s).ph = s.ph := rfl
@[simp] theorem respond_iter (r : GtaRsp) (s : State) : (respond r s).iter = s.iter := rfl
@[simp] theorem respond_wph (r : GtaRsp) (s : State) : (respond r s).wph = s.wph := rfl
@[simp] theorem respond_bitcnt (r : GtaRsp) (s : State) : (respond r s).bitcnt = s.bitcnt := rfl
@[simp] theorem respond_sr (r : GtaRsp) (s : State) : (respond r s).sr = s.sr := rfl
@[simp] theorem respond_b (r : GtaRsp) (s : State) : (respond r s).b = s.b := rfl
@[simp] theorem respond_fam (r : GtaRsp) (s : State) : (respond r s).fam = s.fam := rfl
@[simp] theorem respond_result (r : GtaRsp) (s : State) : (respond r s).result = s.result := rfl
@[simp] theorem respond_pinerr (r : GtaRsp) (s : State) : (respond r s).pinerr = s.pinerr := rfl
@[simp] theorem respond_data (r : GtaRsp) (s : State) : (respond r s).data = s.data := rfl
@[simp] theorem respond_padLow (r : GtaRsp) (s : State) : (respond r s).padLow = s.padLow := rfl
@[simp] theorem respond_sync (r : GtaRsp) (s : State) : (respond r s).sync = s.sync := rfl
@[simp] theorem respond_dcnt (r : GtaRsp) (s : State) : (respond r s).dcnt = s.dcnt := rfl
@[simp] theorem respond_gop (r : GtaRsp) (s : State) : (respond r s).gop = s.gop := rfl
@[simp] theorem respond_busRdata (r : GtaRsp) (s : State) : (respond r s).busRdata = s.busRdata := rfl
@[simp] theorem respond_gtaReq (r : GtaRsp) (s : State) : (respond r s).gtaReq = s.gtaReq := rfl
@[simp] theorem respond_gtaRsp (r : GtaRsp) (s : State) : (respond r s).gtaRsp = r := rfl
@[simp] theorem respond_hostQ (r : GtaRsp) (s : State) : (respond r s).hostQ = s.hostQ := rfl
@[simp] theorem respond_envQ (r : GtaRsp) (s : State) : (respond r s).envQ = s.envQ := rfl
@[simp] theorem respond_drawIx (r : GtaRsp) (s : State) : (respond r s).drawIx = s.drawIx := rfl

/-! ### drivePad -/

@[simp] theorem drivePad_cfg (low : Bool) (s : State) : (drivePad low s).cfg = s.cfg := rfl
@[simp] theorem drivePad_st (low : Bool) (s : State) : (drivePad low s).st = s.st := rfl
@[simp] theorem drivePad_stepIx (low : Bool) (s : State) : (drivePad low s).stepIx = s.stepIx := rfl
@[simp] theorem drivePad_ph (low : Bool) (s : State) : (drivePad low s).ph = s.ph := rfl
@[simp] theorem drivePad_iter (low : Bool) (s : State) : (drivePad low s).iter = s.iter := rfl
@[simp] theorem drivePad_wph (low : Bool) (s : State) : (drivePad low s).wph = s.wph := rfl
@[simp] theorem drivePad_bitcnt (low : Bool) (s : State) : (drivePad low s).bitcnt = s.bitcnt := rfl
@[simp] theorem drivePad_sr (low : Bool) (s : State) : (drivePad low s).sr = s.sr := rfl
@[simp] theorem drivePad_b (low : Bool) (s : State) : (drivePad low s).b = s.b := rfl
@[simp] theorem drivePad_fam (low : Bool) (s : State) : (drivePad low s).fam = s.fam := rfl
@[simp] theorem drivePad_result (low : Bool) (s : State) : (drivePad low s).result = s.result := rfl
@[simp] theorem drivePad_pinerr (low : Bool) (s : State) : (drivePad low s).pinerr = s.pinerr := rfl
@[simp] theorem drivePad_data (low : Bool) (s : State) : (drivePad low s).data = s.data := rfl
@[simp] theorem drivePad_padLow (low : Bool) (s : State) : (drivePad low s).padLow = low := rfl
@[simp] theorem drivePad_sync (low : Bool) (s : State) : (drivePad low s).sync = s.sync := rfl
@[simp] theorem drivePad_dcnt (low : Bool) (s : State) : (drivePad low s).dcnt = s.dcnt := rfl
@[simp] theorem drivePad_gop (low : Bool) (s : State) : (drivePad low s).gop = s.gop := rfl
@[simp] theorem drivePad_busRdata (low : Bool) (s : State) : (drivePad low s).busRdata = s.busRdata := rfl
@[simp] theorem drivePad_gtaReq (low : Bool) (s : State) : (drivePad low s).gtaReq = s.gtaReq := rfl
@[simp] theorem drivePad_gtaRsp (low : Bool) (s : State) : (drivePad low s).gtaRsp = s.gtaRsp := rfl
@[simp] theorem drivePad_hostQ (low : Bool) (s : State) : (drivePad low s).hostQ = s.hostQ := rfl
@[simp] theorem drivePad_envQ (low : Bool) (s : State) : (drivePad low s).envQ = s.envQ := rfl
@[simp] theorem drivePad_drawIx (low : Bool) (s : State) : (drivePad low s).drawIx = s.drawIx := rfl

/-! ### acceptStart -/

@[simp] theorem acceptStart_cfg (f : Family) (s : State) : (acceptStart f s).cfg = s.cfg := rfl
@[simp] theorem acceptStart_st (f : Family) (s : State) : (acceptStart f s).st = .reset := rfl
@[simp] theorem acceptStart_stepIx (f : Family) (s : State) : (acceptStart f s).stepIx = 0 := rfl
@[simp] theorem acceptStart_ph (f : Family) (s : State) : (acceptStart f s).ph = .reset := rfl
@[simp] theorem acceptStart_iter (f : Family) (s : State) : (acceptStart f s).iter = 0 := rfl
@[simp] theorem acceptStart_wph (f : Family) (s : State) : (acceptStart f s).wph = false := rfl
@[simp] theorem acceptStart_bitcnt (f : Family) (s : State) : (acceptStart f s).bitcnt = 0 := rfl
@[simp] theorem acceptStart_sr (f : Family) (s : State) : (acceptStart f s).sr = 0 := rfl
@[simp] theorem acceptStart_b (f : Family) (s : State) : (acceptStart f s).b = false := rfl
@[simp] theorem acceptStart_fam (f : Family) (s : State) : (acceptStart f s).fam = f := rfl
@[simp] theorem acceptStart_result (f : Family) (s : State) : (acceptStart f s).result = .ok := rfl
@[simp] theorem acceptStart_pinerr (f : Family) (s : State) : (acceptStart f s).pinerr = 0 := rfl
@[simp] theorem acceptStart_data (f : Family) (s : State) : (acceptStart f s).data = .zero := rfl
@[simp] theorem acceptStart_padLow (f : Family) (s : State) : (acceptStart f s).padLow = s.padLow := rfl
@[simp] theorem acceptStart_sync (f : Family) (s : State) : (acceptStart f s).sync = s.sync := rfl
@[simp] theorem acceptStart_dcnt (f : Family) (s : State) : (acceptStart f s).dcnt = s.dcnt := rfl
@[simp] theorem acceptStart_gop (f : Family) (s : State) : (acceptStart f s).gop = s.gop := rfl
@[simp] theorem acceptStart_busRdata (f : Family) (s : State) : (acceptStart f s).busRdata = s.busRdata := rfl
@[simp] theorem acceptStart_gtaReq (f : Family) (s : State) : (acceptStart f s).gtaReq = s.gtaReq := rfl
@[simp] theorem acceptStart_gtaRsp (f : Family) (s : State) : (acceptStart f s).gtaRsp = s.gtaRsp := rfl
@[simp] theorem acceptStart_hostQ (f : Family) (s : State) : (acceptStart f s).hostQ = s.hostQ := rfl
@[simp] theorem acceptStart_envQ (f : Family) (s : State) : (acceptStart f s).envQ = s.envQ := rfl
@[simp] theorem acceptStart_drawIx (f : Family) (s : State) : (acceptStart f s).drawIx = s.drawIx := rfl

/-! ### failExchange -/

@[simp] theorem failExchange_cfg (f : Failure) (s : State) : (failExchange f s).cfg = s.cfg := rfl
@[simp] theorem failExchange_st (f : Failure) (s : State) : (failExchange f s).st = .failed := rfl
@[simp] theorem failExchange_stepIx (f : Failure) (s : State) : (failExchange f s).stepIx = s.stepIx := rfl
@[simp] theorem failExchange_ph (f : Failure) (s : State) : (failExchange f s).ph = s.ph := rfl
@[simp] theorem failExchange_iter (f : Failure) (s : State) : (failExchange f s).iter = s.iter := rfl
@[simp] theorem failExchange_wph (f : Failure) (s : State) : (failExchange f s).wph = s.wph := rfl
@[simp] theorem failExchange_bitcnt (f : Failure) (s : State) : (failExchange f s).bitcnt = s.bitcnt := rfl
@[simp] theorem failExchange_sr (f : Failure) (s : State) : (failExchange f s).sr = s.sr := rfl
@[simp] theorem failExchange_b (f : Failure) (s : State) : (failExchange f s).b = s.b := rfl
@[simp] theorem failExchange_fam (f : Failure) (s : State) : (failExchange f s).fam = s.fam := rfl
@[simp] theorem failExchange_result (f : Failure) (s : State) : (failExchange f s).result = f.result := rfl
@[simp] theorem failExchange_pinerr (f : Failure) (s : State) : (failExchange f s).pinerr = f.pinerr s.pinerr := rfl
@[simp] theorem failExchange_data (f : Failure) (s : State) : (failExchange f s).data = s.data := rfl
@[simp] theorem failExchange_padLow (f : Failure) (s : State) : (failExchange f s).padLow = s.padLow := rfl
@[simp] theorem failExchange_sync (f : Failure) (s : State) : (failExchange f s).sync = s.sync := rfl
@[simp] theorem failExchange_dcnt (f : Failure) (s : State) : (failExchange f s).dcnt = s.dcnt := rfl
@[simp] theorem failExchange_gop (f : Failure) (s : State) : (failExchange f s).gop = s.gop := rfl
@[simp] theorem failExchange_busRdata (f : Failure) (s : State) : (failExchange f s).busRdata = s.busRdata := rfl
@[simp] theorem failExchange_gtaReq (f : Failure) (s : State) : (failExchange f s).gtaReq = s.gtaReq := rfl
@[simp] theorem failExchange_gtaRsp (f : Failure) (s : State) : (failExchange f s).gtaRsp = s.gtaRsp := rfl
@[simp] theorem failExchange_hostQ (f : Failure) (s : State) : (failExchange f s).hostQ = s.hostQ := rfl
@[simp] theorem failExchange_envQ (f : Failure) (s : State) : (failExchange f s).envQ = s.envQ := rfl
@[simp] theorem failExchange_drawIx (f : Failure) (s : State) : (failExchange f s).drawIx = s.drawIx := rfl

/-! ### enter -/

@[simp] theorem enter_cfg (e : EngSt) (s : State) : (enter e s).cfg = s.cfg := rfl
@[simp] theorem enter_st (e : EngSt) (s : State) : (enter e s).st = e := rfl
@[simp] theorem enter_stepIx (e : EngSt) (s : State) : (enter e s).stepIx = 0 := rfl
@[simp] theorem enter_ph (e : EngSt) (s : State) : (enter e s).ph = s.ph := rfl
@[simp] theorem enter_iter (e : EngSt) (s : State) : (enter e s).iter = s.iter := rfl
@[simp] theorem enter_wph (e : EngSt) (s : State) : (enter e s).wph = s.wph := rfl
@[simp] theorem enter_bitcnt (e : EngSt) (s : State) : (enter e s).bitcnt = s.bitcnt := rfl
@[simp] theorem enter_sr (e : EngSt) (s : State) : (enter e s).sr = s.sr := rfl
@[simp] theorem enter_b (e : EngSt) (s : State) : (enter e s).b = s.b := rfl
@[simp] theorem enter_fam (e : EngSt) (s : State) : (enter e s).fam = s.fam := rfl
@[simp] theorem enter_result (e : EngSt) (s : State) : (enter e s).result = s.result := rfl
@[simp] theorem enter_pinerr (e : EngSt) (s : State) : (enter e s).pinerr = s.pinerr := rfl
@[simp] theorem enter_data (e : EngSt) (s : State) : (enter e s).data = s.data := rfl
@[simp] theorem enter_padLow (e : EngSt) (s : State) : (enter e s).padLow = s.padLow := rfl
@[simp] theorem enter_sync (e : EngSt) (s : State) : (enter e s).sync = s.sync := rfl
@[simp] theorem enter_dcnt (e : EngSt) (s : State) : (enter e s).dcnt = s.dcnt := rfl
@[simp] theorem enter_gop (e : EngSt) (s : State) : (enter e s).gop = s.gop := rfl
@[simp] theorem enter_busRdata (e : EngSt) (s : State) : (enter e s).busRdata = s.busRdata := rfl
@[simp] theorem enter_gtaReq (e : EngSt) (s : State) : (enter e s).gtaReq = s.gtaReq := rfl
@[simp] theorem enter_gtaRsp (e : EngSt) (s : State) : (enter e s).gtaRsp = s.gtaRsp := rfl
@[simp] theorem enter_hostQ (e : EngSt) (s : State) : (enter e s).hostQ = s.hostQ := rfl
@[simp] theorem enter_envQ (e : EngSt) (s : State) : (enter e s).envQ = s.envQ := rfl
@[simp] theorem enter_drawIx (e : EngSt) (s : State) : (enter e s).drawIx = s.drawIx := rfl

/-! ### nextStep -/

@[simp] theorem nextStep_cfg (s : State) : (nextStep s).cfg = s.cfg := rfl
@[simp] theorem nextStep_st (s : State) : (nextStep s).st = s.st := rfl
@[simp] theorem nextStep_stepIx (s : State) : (nextStep s).stepIx = s.stepIx + 1 := rfl
@[simp] theorem nextStep_ph (s : State) : (nextStep s).ph = s.ph := rfl
@[simp] theorem nextStep_iter (s : State) : (nextStep s).iter = s.iter := rfl
@[simp] theorem nextStep_wph (s : State) : (nextStep s).wph = s.wph := rfl
@[simp] theorem nextStep_bitcnt (s : State) : (nextStep s).bitcnt = s.bitcnt := rfl
@[simp] theorem nextStep_sr (s : State) : (nextStep s).sr = s.sr := rfl
@[simp] theorem nextStep_b (s : State) : (nextStep s).b = s.b := rfl
@[simp] theorem nextStep_fam (s : State) : (nextStep s).fam = s.fam := rfl
@[simp] theorem nextStep_result (s : State) : (nextStep s).result = s.result := rfl
@[simp] theorem nextStep_pinerr (s : State) : (nextStep s).pinerr = s.pinerr := rfl
@[simp] theorem nextStep_data (s : State) : (nextStep s).data = s.data := rfl
@[simp] theorem nextStep_padLow (s : State) : (nextStep s).padLow = s.padLow := rfl
@[simp] theorem nextStep_sync (s : State) : (nextStep s).sync = s.sync := rfl
@[simp] theorem nextStep_dcnt (s : State) : (nextStep s).dcnt = s.dcnt := rfl
@[simp] theorem nextStep_gop (s : State) : (nextStep s).gop = s.gop := rfl
@[simp] theorem nextStep_busRdata (s : State) : (nextStep s).busRdata = s.busRdata := rfl
@[simp] theorem nextStep_gtaReq (s : State) : (nextStep s).gtaReq = s.gtaReq := rfl
@[simp] theorem nextStep_gtaRsp (s : State) : (nextStep s).gtaRsp = s.gtaRsp := rfl
@[simp] theorem nextStep_hostQ (s : State) : (nextStep s).hostQ = s.hostQ := rfl
@[simp] theorem nextStep_envQ (s : State) : (nextStep s).envQ = s.envQ := rfl
@[simp] theorem nextStep_drawIx (s : State) : (nextStep s).drawIx = s.drawIx := rfl

/-! ### endCycle -/

@[simp] theorem endCycle_cfg (s0 s : State) : (endCycle s0 s).cfg = s.cfg := rfl
@[simp] theorem endCycle_st (s0 s : State) : (endCycle s0 s).st = s.st := rfl
@[simp] theorem endCycle_stepIx (s0 s : State) : (endCycle s0 s).stepIx = s.stepIx := rfl
@[simp] theorem endCycle_ph (s0 s : State) : (endCycle s0 s).ph = if s.busy then s.st else s.ph := rfl
@[simp] theorem endCycle_iter (s0 s : State) : (endCycle s0 s).iter = s.iter := rfl
@[simp] theorem endCycle_wph (s0 s : State) : (endCycle s0 s).wph = s.wph := rfl
@[simp] theorem endCycle_bitcnt (s0 s : State) : (endCycle s0 s).bitcnt = s.bitcnt := rfl
@[simp] theorem endCycle_sr (s0 s : State) : (endCycle s0 s).sr = s.sr := rfl
@[simp] theorem endCycle_b (s0 s : State) : (endCycle s0 s).b = s.b := rfl
@[simp] theorem endCycle_fam (s0 s : State) : (endCycle s0 s).fam = s.fam := rfl
@[simp] theorem endCycle_result (s0 s : State) : (endCycle s0 s).result = s.result := rfl
@[simp] theorem endCycle_pinerr (s0 s : State) : (endCycle s0 s).pinerr = s.pinerr := rfl
@[simp] theorem endCycle_data (s0 s : State) : (endCycle s0 s).data = s.data := rfl
@[simp] theorem endCycle_padLow (s0 s : State) : (endCycle s0 s).padLow = s.padLow := rfl
@[simp] theorem endCycle_sync (s0 s : State) : (endCycle s0 s).sync = s0.syncNext := rfl
@[simp] theorem endCycle_dcnt (s0 s : State) : (endCycle s0 s).dcnt = s.dcnt := rfl
@[simp] theorem endCycle_gop (s0 s : State) : (endCycle s0 s).gop = s.gop := rfl
@[simp] theorem endCycle_busRdata (s0 s : State) : (endCycle s0 s).busRdata = s.busRdata := rfl
@[simp] theorem endCycle_gtaReq (s0 s : State) : (endCycle s0 s).gtaReq = s.gtaReq := rfl
@[simp] theorem endCycle_gtaRsp (s0 s : State) : (endCycle s0 s).gtaRsp = s.gtaRsp := rfl
@[simp] theorem endCycle_hostQ (s0 s : State) : (endCycle s0 s).hostQ = s.hostQ.drop 1 := rfl
@[simp] theorem endCycle_envQ (s0 s : State) : (endCycle s0 s).envQ = s.envQ.drop 1 := rfl
@[simp] theorem endCycle_drawIx (s0 s : State) : (endCycle s0 s).drawIx = s.drawIx + 1 := rfl

end Sys2Proof.Machine
end

