-- ==== Sys2Proof/Laws/Ops.lean ====
section
/-! SUPPORT. What each shared operation can do, said once: a caller cites these and unfolds nothing. A frame is an
equation `t = { s with … }` that names every field the operation may have written. -/

namespace Sys2Proof.Machine

/-! ### The host's side -/

theorem requestStart_of_busy {s : State} (f : Family) (h : s.busy = true) : requestStart f s = s := by
  simp [requestStart, h]

theorem requestStart_of_free {s : State} (f : Family) (h : s.busy = false) :
    requestStart f s = acceptStart f s := by
  simp [requestStart, h]

theorem writeCmd_of_reserved {v : Byte} (s : State) (h : cmdReserved v ≠ 0) : writeCmd v s = s := by
  unfold writeCmd
  rw [if_pos h]

theorem writeCmd_of_noStart {v : Byte} (s : State) (h : cmdStart v = false) : writeCmd v s = s := by
  simp [writeCmd, h]

theorem writeCmd_of_start {v : Byte} (s : State) (h0 : cmdReserved v = 0) (h : cmdStart v = true) :
    writeCmd v s = requestStart (cmdFamily v) s := by
  simp [writeCmd, h0, h]

theorem memWrite_of_ne_zero {a : BitVec 4} (v : Byte) (s : State) (h : a ≠ 0) : memWrite a v s = s := by
  unfold memWrite
  rw [if_neg h]

/-! ### The GTA -/

/-- A pad write answers in its issue cycle, and changes the pad only when no fault is drawn. -/
theorem pinWrite_cases (low : Bool) (s : State) :
    (s.draw.pinFault = true ∧ pinWrite low s = respond (.error s.draw.pinFaultCode) s) ∨
    (s.draw.pinFault = false ∧ pinWrite low s = drivePad low (respond .ok s)) := by
  unfold pinWrite
  cases s.draw.pinFault <;> simp

/-- A query answers in its issue cycle. -/
theorem pinQuery_cases (level : Bool) (s : State) :
    (s.draw.pinFault = true ∧ pinQuery level s = respond (.error s.draw.pinFaultCode) s) ∨
    (s.draw.pinFault = false ∧ pinQuery level s = respond (.answer (s.seen == level)) s) := by
  unfold pinQuery
  cases s.draw.pinFault <;> simp

/-- A delay of one cycle answers in its issue cycle; a longer one loads the counter. -/
theorem startDelay_cases (op : GtaOp) (len : Nat) (s : State) :
    (len = 1 ∧ startDelay op len s = respond .ok s) ∨
    (len ≠ 1 ∧ startDelay op len s = { s with gtaRsp := .quiet, dcnt := len - 1, gop := op }) := by
  unfold startDelay
  split
  · exact .inl ⟨‹_›, rfl⟩
  · exact .inr ⟨‹_›, rfl⟩

/-- Without a request the GTA is idle, in the last cycle of a delay, or in an earlier one. -/
theorem gtaNoRequest_cases (s : State) :
    (s.dcnt = 0 ∧ gtaNoRequest s = { s with gtaReq := 0, gtaRsp := .quiet }) ∨
    (s.dcnt = 1 ∧ gtaNoRequest s = { s with gtaReq := 0, gtaRsp := .ok, dcnt := 0, gop := .none }) ∨
    (1 < s.dcnt ∧ gtaNoRequest s = { s with gtaReq := 0, gtaRsp := .quiet, dcnt := s.dcnt - 1 }) := by
  unfold gtaNoRequest tickDelay
  split
  · exact .inl ⟨‹_›, rfl⟩
  · split
    · exact .inr (.inl ⟨‹_›, rfl⟩)
    · exact .inr (.inr ⟨by omega, rfl⟩)

/-- The GTA writes its own fields and its ports only. -/
theorem gtaNoRequest_frame (s : State) : gtaNoRequest s =
    { s with gtaReq := (gtaNoRequest s).gtaReq, gtaRsp := (gtaNoRequest s).gtaRsp,
             dcnt := (gtaNoRequest s).dcnt, gop := (gtaNoRequest s).gop } := by
  obtain ⟨-, h⟩ | ⟨-, h⟩ | ⟨-, h⟩ := gtaNoRequest_cases s <;> rw [h]

/-- A pad write changes the pad register and the response port only. -/
theorem pinWrite_frame (low : Bool) (s : State) : pinWrite low s =
    { s with padLow := (pinWrite low s).padLow, gtaRsp := (pinWrite low s).gtaRsp } := by
  obtain ⟨-, h⟩ | ⟨-, h⟩ := pinWrite_cases low s <;> rw [h] <;> rfl

/-- A query changes the response port only. -/
theorem pinQuery_frame (level : Bool) (s : State) : pinQuery level s =
    { s with gtaRsp := (pinQuery level s).gtaRsp } := by
  obtain ⟨-, h⟩ | ⟨-, h⟩ := pinQuery_cases level s <;> rw [h] <;> rfl

/-! ### Outcomes -/

theorem andThen_eq_next {o : Res} {f : State → Res} {t : State} (h : andThen o f = .next t) :
    ∃ u, o = .next u ∧ f u = .next t := by
  cases o with
  | next u => exact ⟨u, rfl, h⟩
  | fault _ => cases h
  | refused _ => cases h

@[simp] theorem andThen_next (s : State) (f : State → Res) : andThen (.next s) f = f s := rfl
@[simp] theorem andThen_fault (r : Fault) (f : State → Res) : andThen (.fault r) f = .fault r := rfl
@[simp] theorem andThen_refused (r : Refusal) (f : State → Res) : andThen (.refused r) f = .refused r := rfl

end Sys2Proof.Machine
end

