-- ==== Sys2Proof/Laws/Step.lean ====
section
/-! SUPPORT. What one cycle can do, said once: the host's port, the engine's operation, and the whole step. Whole-machine
statements are case splits over step_cases and runOp_cases. -/

namespace Sys2Proof.Machine

/-- A host access that runs changes `bus_rdata`, and beside it at most accepts a START, which needs BUSY = 0. -/
theorem exec_host_cases {i : Instr} {s t : State} (hi : i.isPrimitive = false) (h : exec i s = .next t) :
    ∃ v, t = driveData v s ∨ (s.busy = false ∧ ∃ f, t = driveData v (acceptStart f s)) := by
  have start (f : Family) (h : Host.Outcome.next (driveData 0 (requestStart f s)) = (Host.Outcome.next t : Res)) :
      ∃ v, t = driveData v s ∨ (s.busy = false ∧ ∃ f, t = driveData v (acceptStart f s)) := by
    injection h with h
    subst h
    cases hb : s.busy with
    | true => exact ⟨0, .inl (by rw [requestStart_of_busy f hb])⟩
    | false => exact ⟨0, .inr ⟨rfl, f, by rw [requestStart_of_free f hb]⟩⟩
  cases i with
  | readDht11 => exact start _ h
  | readDht22 => exact start _ h
  | nop _ => cases h; exact ⟨_, .inl rfl⟩
  | rdStatus _ => cases h; exact ⟨_, .inl rfl⟩
  | rdData0 _ => cases h; exact ⟨_, .inl rfl⟩
  | rdData1 _ => cases h; exact ⟨_, .inl rfl⟩
  | rdData2 _ => cases h; exact ⟨_, .inl rfl⟩
  | rdData3 _ => cases h; exact ⟨_, .inl rfl⟩
  | rdPinerr _ => cases h; exact ⟨_, .inl rfl⟩
  | rdState _ => cases h; exact ⟨_, .inl rfl⟩
  | rdPos _ => cases h; exact ⟨_, .inl rfl⟩
  | rdBitcnt _ => cases h; exact ⟨_, .inl rfl⟩
  | setLow => cases hi
  | setHigh => cases hi
  | isLow => cases hi
  | isHigh => cases hi
  | delayUs _ => cases hi
  | delayMs _ => cases hi

/-- A word that decodes to a write of a read-only register does not address CMD. -/
theorem busAddr_of_readOnlyWrite {w : BusWord} (h : decodeHostBus w = .readOnlyWrite) : busAddr w ≠ 0 := by
  unfold decodeHostBus at h
  split at h
  · cases h
  · unfold reservedHostClass at h
    split at h <;> [cases h; skip]
    split at h <;> [skip; cases h]
    split at h <;> [cases h; assumption]

/-- The host's port changes `bus_rdata`, and beside it at most accepts a START, which needs BUSY = 0. -/
theorem hostPort_cases {s t : State} (h : hostPort s = .next t) :
    ∃ v, t = driveData v s ∨ (s.busy = false ∧ ∃ f, t = driveData v (acceptStart f s)) := by
  unfold hostPort at h
  split at h
  · cases h; exact ⟨_, .inl rfl⟩
  · rename_i w _
    split at h
    · rename_i i hd
      exact exec_host_cases (decodeHostBus_not_primitive hd) h
    · cases h; exact ⟨_, .inl rfl⟩
    · rename_i hd
      cases h
      exact ⟨_, .inl (by rw [memWrite_of_ne_zero _ _ (busAddr_of_readOnlyWrite hd)])⟩
    · cases h
    · cases h

/-- What a GTA primitive's issue cycle writes: the pad register, the delay counter, `gop` and the response port. -/
theorem exec_primitive_frame {i : Instr} {s t : State} (hi : i.isPrimitive = true) (h : exec i s = .next t) :
    t = { s with padLow := t.padLow, dcnt := t.dcnt, gop := t.gop, gtaRsp := t.gtaRsp } := by
  have delay (op : GtaOp) (len : Nat) : startDelay op len s = { s with
      padLow := (startDelay op len s).padLow, dcnt := (startDelay op len s).dcnt,
      gop := (startDelay op len s).gop, gtaRsp := (startDelay op len s).gtaRsp } := by
    obtain ⟨-, h⟩ | ⟨-, h⟩ := startDelay_cases op len s
    · rw [h]; rfl
    · rw [h]
  cases i with
  | setLow => cases h; rw [pinWrite_frame]
  | setHigh => cases h; rw [pinWrite_frame]
  | isLow => cases h; rw [pinQuery_frame]
  | isHigh => cases h; rw [pinQuery_frame]
  | delayUs n =>
    simp only [exec, execDelayUs] at h
    split at h <;> cases h
    exact delay _ _
  | delayMs n =>
    simp only [exec, execDelayMs] at h
    split at h <;> cases h
    exact delay _ _
  | nop _ => cases hi
  | readDht11 => cases hi
  | readDht22 => cases hi
  | rdStatus _ => cases hi
  | rdData0 _ => cases hi
  | rdData1 _ => cases hi
  | rdData2 _ => cases hi
  | rdData3 _ => cases hi
  | rdPinerr _ => cases hi
  | rdState _ => cases hi
  | rdPos _ => cases hi
  | rdBitcnt _ => cases hi

/-- The request the engine presents when its operation starts a primitive. -/
theorem request_of_op {s : State} {op : EngOp} {i : Instr} (hb : s.busy = true) (hd : s.dcnt = 0)
    (hop : s.op = some op) (hi : requestOf op s = some i) : s.request = requestWord i := by
  simp [State.request, hb, hd, hop, hi]

/-- An operation that uses the GTA issues its primitive, or lets a running delay go on; either way the engine then
reacts to the response. -/
theorem runOp_gta {op : EngOp} (s : State)
    (ht : op ≠ .transit) (hv : op ≠ .validate) :
    runOp op s = if s.dcnt = 0
      then andThen (issue s.request s) fun t => .next (engineReact op t)
      else .next (engineReact op (gtaNoRequest s)) := by
  cases op <;> first | rfl | contradiction

/-- What the engine's cycle can be: a transit, VALIDATE, a later cycle of a delay, or the issue of a primitive. -/
theorem runOp_cases {s t : State} {op : EngOp} (hb : s.busy = true) (hop : s.op = some op)
    (h : runOp op s = .next t) :
    (op = .transit ∧ t = advance (gtaNoRequest s)) ∨
    (op = .validate ∧ t = validate (gtaNoRequest s)) ∨
    (s.dcnt ≠ 0 ∧ op ≠ .transit ∧ op ≠ .validate ∧ t = engineReact op (gtaNoRequest s)) ∨
    (s.dcnt = 0 ∧ ∃ i u, requestOf op s = some i ∧ exec i (presentRequest (requestWord i) s) = .next u ∧
      t = engineReact op u) := by
  by_cases ht : op = .transit
  · subst ht; cases h; exact .inl ⟨rfl, rfl⟩
  by_cases hv : op = .validate
  · subst hv; cases h; exact .inr (.inl ⟨rfl, rfl⟩)
  rw [runOp_gta s ht hv] at h
  split at h
  · rename_i hd
    have ⟨i, hi⟩ : ∃ i, requestOf op s = some i := by
      cases op with
      | wait level => simp only [requestOf]; split <;> [exact ⟨_, rfl⟩; split <;> exact ⟨_, rfl⟩]
      | transit => contradiction
      | validate => contradiction
      | _ => exact ⟨_, rfl⟩
    obtain ⟨u, hu, ht'⟩ := andThen_eq_next h
    rw [request_of_op hb hd hop hi, issue, decodeGtaReq_requestWord hi] at hu
    cases ht'
    exact .inr (.inr (.inr ⟨hd, i, u, hi, hu, rfl⟩))
  · cases h
    exact .inr (.inr (.inl ⟨‹_›, ht, hv, rfl⟩))

/-- The whole step: reset; a cycle in which the engine runs its operation beside a host access that only reads; or a
cycle in which only the GTA runs, beside a host access that may accept a START. -/
theorem step_cases {s t : State} (h : step s = .next t) :
    (s.hostIn.rst = true ∧ ∃ v, t = consumeInputs (driveData v (resetBlock s))) ∨
    (s.hostIn.rst = false ∧ s.busy = true ∧ ∃ v op u, s.op = some op ∧ runOp op (driveData v s) = .next u ∧
      t = endCycle s u) ∨
    (s.hostIn.rst = false ∧ s.busy = false ∧ ∃ v, t = endCycle s (gtaNoRequest (driveData v s)) ∨
      ∃ f, t = endCycle s (gtaNoRequest (driveData v (acceptStart f s)))) := by
  unfold step clockCycle at h
  split at h
  · rename_i hr
    refine .inl ⟨hr, ?_⟩
    unfold resetCycle at h
    split at h
    · cases h; exact ⟨0, rfl⟩
    · split at h
      · cases h; exact ⟨0, rfl⟩
      · split at h <;> cases h
        exact ⟨_, rfl⟩
  · rename_i hr
    have hr : s.hostIn.rst = false := by simpa using hr
    unfold runCycle at h
    obtain ⟨s1, h1, h⟩ := andThen_eq_next h
    obtain ⟨s2, h2, h⟩ := andThen_eq_next h
    injection h with h
    subst h
    obtain ⟨v, rfl | ⟨hb, f, rfl⟩⟩ := hostPort_cases h1
    · cases hb : s.busy with
      | true =>
        simp only [engineAfterHost, hb, if_true, engineCycle] at h2
        have hb' : (driveData v s).busy = true := hb
        simp only [hb', if_true] at h2
        split at h2
        · rename_i op hop
          exact .inr (.inl ⟨hr, rfl, v, op, s2, hop, h2, rfl⟩)
        · cases h2
      | false =>
        simp only [engineAfterHost, hb, Bool.false_eq_true, if_false] at h2
        cases h2
        exact .inr (.inr ⟨hr, rfl, v, .inl rfl⟩)
    · simp only [engineAfterHost, hb, Bool.false_eq_true, if_false] at h2
      cases h2
      exact .inr (.inr ⟨hr, hb, v, .inr ⟨f, rfl⟩⟩)

end Sys2Proof.Machine
end

