-- ==== Sys2Proof/Laws/Engine.lean ====
section
/-! SUPPORT. The engine, said once: the legal positions, what follows each of them, what the engine does with a
response, and what never changes in a step. -/

namespace Sys2Proof.Machine

/-- The legal positions, each with its operation: R22's table read backwards. -/
theorem opAt_cases {e : EngSt} {ix : BitVec 3} {op : EngOp} (h : opAt e ix = some op) :
    (e = .reset ∧ ix = 0 ∧ op = .setLow) ∨ (e = .reset ∧ ix = 1 ∧ op = .resetLow) ∨
    (e = .reset ∧ ix = 2 ∧ op = .setHigh) ∨ (e = .reset ∧ ix = 3 ∧ op = .release) ∨
    (e = .reset ∧ ix = 4 ∧ op = .wait true) ∨ (e = .ackWait1 ∧ ix = 0 ∧ op = .wait false) ∨
    (e = .ackWait1 ∧ ix = 1 ∧ op = .wait true) ∨ (e = .ackWait1 ∧ ix = 2 ∧ op = .wait false) ∨
    (e = .ackWait2 ∧ ix = 0 ∧ op = .transit) ∨ (e = .bitLoop ∧ ix = 0 ∧ op = .wait true) ∨
    (e = .bitLoop ∧ ix = 1 ∧ op = .sampleDelay) ∨ (e = .bitLoop ∧ ix = 2 ∧ op = .sample) ∨
    (e = .bitLoop ∧ ix = 3 ∧ op = .wait false) ∨ (e = .validate ∧ ix = 0 ∧ op = .validate) := by
  have hix (n : Nat) (hn : n < 8) (h : ix.toNat = n) : ix = BitVec.ofNat 3 n := by
    apply BitVec.eq_of_toNat_eq
    simp [h, Nat.mod_eq_of_lt hn]
  unfold opAt at h
  split at h <;> first | (cases h; done) | (rename_i hk; cases h; simp [hix _ (by decide) hk])

/-- A position with an operation is a busy one. -/
theorem busy_of_op {s : State} {op : EngOp} (h : s.op = some op) : s.busy = true := by
  rcases opAt_cases h with h | h | h | h | h | h | h | h | h | h | h | h | h | h <;>
    simp [State.busy, h.1, EngSt.busy]

/-- What follows a completed operation, position by position: R160's rows of success. -/
theorem advance_cases {s : State} {op : EngOp} (h : s.op = some op) (hv : op ≠ .validate) :
    (s.st = .reset ∧ s.stepIx = 4 ∧ op = .wait true ∧ advance s = enter .ackWait1 s) ∨
    (s.st = .ackWait1 ∧ s.stepIx = 2 ∧ op = .wait false ∧ advance s = enter .ackWait2 s) ∨
    (s.st = .ackWait2 ∧ s.stepIx = 0 ∧ op = .transit ∧ advance s = enter .bitLoop s) ∨
    (s.st = .bitLoop ∧ s.stepIx = 3 ∧ op = .wait false ∧ advance s = commitBit s) ∨
    (((s.st = .reset ∧ s.stepIx.toNat < 4) ∨ (s.st = .ackWait1 ∧ s.stepIx.toNat < 2) ∨
      (s.st = .bitLoop ∧ s.stepIx.toNat < 3)) ∧ advance s = nextStep s) := by
  rcases opAt_cases h with h | h | h | h | h | h | h | h | h | h | h | h | h | h <;>
    obtain ⟨h1, h2, h3⟩ := h <;> first | contradiction | simp [advance, h1, h2, h3]

/-- A committed bit: the shift, the count, and the next position (R179). -/
theorem commitBit_cases (s : State) :
    (s.bitcnt.toNat + 1 = 40 ∧ commitBit s =
      { s with sr := shiftIn s.sr s.b, bitcnt := s.bitcnt + 1, st := .validate, stepIx := 0 }) ∨
    (s.bitcnt.toNat + 1 ≠ 40 ∧ commitBit s =
      { s with sr := shiftIn s.sr s.b, bitcnt := s.bitcnt + 1, st := .bitLoop, stepIx := 0 }) := by
  unfold commitBit
  split
  · exact .inl ⟨‹_›, rfl⟩
  · exact .inr ⟨‹_›, rfl⟩

/-- VALIDATE: the payload and OK on a match, else the failure (R221). -/
theorem validate_cases (s : State) :
    (chk (frameByte s.sr 0) (frameByte s.sr 1) (frameByte s.sr 2) (frameByte s.sr 3) = frameByte s.sr 4 ∧
      validate s = { s with
        data := ⟨frameByte s.sr 0, frameByte s.sr 1, frameByte s.sr 2, frameByte s.sr 3⟩
        result := .ok, st := .done }) ∨
    (chk (frameByte s.sr 0) (frameByte s.sr 1) (frameByte s.sr 2) (frameByte s.sr 3) ≠ frameByte s.sr 4 ∧
      validate s = failExchange .checksumMismatch s) := by
  unfold validate
  split
  · exact .inl ⟨‹_›, rfl⟩
  · exact .inr ⟨‹_›, rfl⟩

/-- The end of a poll: one more iteration, or Timeout (R161). -/
theorem endOfPoll_cases (s : State) :
    (s.iter.toNat + 1 < s.cfg.timeoutIters ∧ endOfPoll s = { s with iter := s.iter + 1, wph := false }) ∨
    (s.cfg.timeoutIters ≤ s.iter.toNat + 1 ∧ endOfPoll s = failExchange .timeout s) := by
  unfold endOfPoll
  split
  · exact .inl ⟨‹_›, rfl⟩
  · exact .inr ⟨by omega, rfl⟩

/-- A wait's sample answered: a fault, a match, or the polling delay next (R161, R278). -/
theorem afterSample_cases (s : State) :
    (s.gtaRsp.err = true ∧ afterSample s = failExchange (.pinFault s.gtaRsp.code) s) ∨
    (s.gtaRsp.err = false ∧ s.gtaRsp.val = true ∧ afterSample s = advance { s with iter := 0, wph := false }) ∨
    (s.gtaRsp.err = false ∧ s.gtaRsp.val = false ∧ afterSample s = { s with wph := true }) := by
  unfold afterSample
  cases s.gtaRsp.err <;> cases s.gtaRsp.val <;> simp

@[simp] theorem GtaOp.ofCode_code (g : GtaOp) : GtaOp.ofCode g.code = g := by cases g <;> rfl

/-- In a primitive's issue cycle `gop` is the request's opcode (R37). -/
theorem gopInCycle_of_issue {s : State} (h : s.dcnt = 0) : s.gopInCycle = .ofCode (reqOp s.request) := by
  simp [State.gopInCycle, h]

/-- In a delay's later cycles `gop` is the stored one (R37). -/
theorem gopInCycle_of_running {s : State} (h : s.dcnt ≠ 0) : s.gopInCycle = s.gop := by
  simp [State.gopInCycle, h]

/-- A running delay ends exactly in the cycle that starts with `dcnt` = 1 (R128). -/
theorem delayEnds_of_running {op : EngOp} {s : State} {g : GtaOp} {len : Nat} (h : delayOf op s = some (g, len))
    (hd : s.dcnt ≠ 0) : delayEnds op s ↔ s.dcnt = 1 := by
  simp [delayEnds, h, hd]

/-- A delay ends in its issue cycle exactly if it is one cycle long (R128). -/
theorem delayEnds_of_issue {op : EngOp} {s : State} {g : GtaOp} {len : Nat} (h : delayOf op s = some (g, len))
    (hd : s.dcnt = 0) : delayEnds op s ↔ len = 1 := by
  simp [delayEnds, h, hd]

/-- Without DONE the engine waits (R123). -/
theorem engineReact_of_notDone {op : EngOp} {s : State} (h : s.gtaRsp.done = false) : engineReact op s = s := by
  simp [engineReact, h]

/-- With DONE it reacts as its operation does. -/
theorem engineReact_of_done {op : EngOp} {s : State} (h : s.gtaRsp.done = true) : engineReact op s =
    match op with
    | .setLow | .setHigh =>
      if s.gtaRsp.err then failExchange (.pinFault s.gtaRsp.code) s else advance s
    | .sample =>
      if s.gtaRsp.err then failExchange (.pinFault s.gtaRsp.code) s else advance { s with b := s.gtaRsp.val }
    | .wait _ => if s.wph then endOfPoll s else afterSample s
    | .resetLow | .release | .sampleDelay => advance s
    | .transit | .validate => s := by
  simp only [engineReact, h]
  rfl

end Sys2Proof.Machine
end

