-- ==== Sys2Proof/Laws/PerInstr.lean ====
section
/-! SUPPORT. The statements made one instruction at a time: each instruction's word matches a row of its opcode map
(30_encoding.md rules R96, R97), and that row builds the instruction back with every operand. -/

namespace Sys2Proof.Laws.TableRow

/-- Some row of the map accepts the word of i and builds i from it. -/
def Statement (i : Instr) : Prop :=
  match encode i with
  | .hostBus w => ∃ r ∈ hostRows, r.accepts w = true ∧ r.build w = i
  | .gtaReq w => ∃ r ∈ gtaRows, r.accepts w = true ∧ r.build w = i

/-- The data field of a host word is read back. -/
theorem busData_busWord (we : Bool) (a : BitVec 4) (d : Byte) : busData (busWord we a d) = d := by
  apply BitVec.eq_of_getLsbD_eq
  intro k hk
  simp only [busData, busWord, BitVec.getLsbD_extractLsb', BitVec.getLsbD_append]
  simp [hk]

/-- A read of address a, whatever its data field, has the row's fixed bits. -/
theorem read_fixed_bits (a : BitVec 4) (d : Byte) : busWord false a d &&& 0x1F00 = busWord false a 0 := by
  apply BitVec.eq_of_getLsbD_eq
  intro k hk
  simp only [busWord, BitVec.getLsbD_and, BitVec.getLsbD_append]
  by_cases h8 : k < 8
  · have hm : (0x1F00#13).getLsbD k = false := by interval_cases k <;> decide
    simp [hm, h8]
  · have hm : (0x1F00#13).getLsbD k = true := by interval_cases k <;> first | omega | decide
    simp [hm, h8]

/-- A read row: what is left to show is that the row stands in the map. -/
theorem read_row {i : Instr} {a : BitVec 4} {d : Byte} {build : BusWord → Instr} {pat : BusWord}
    (hi : encode i = .hostBus (busWord false a d)) (hm : ⟨0x1F00, pat, build⟩ ∈ hostRows)
    (hp : busWord false a 0 = pat) (hb : build (busWord false a d) = i) : Statement i := by
  simp only [Statement, hi]
  refine ⟨_, hm, ?_, hb⟩
  rw [HostRow.accepts, read_fixed_bits, hp]
  exact beq_self_eq_true pat

theorem nop (f : Bool) : Statement (.nop f) := by
  cases f <;> exact ⟨_, List.mem_of_getElem? (i := 0) rfl, by decide, by decide⟩

theorem readDht11 : Statement .readDht11 := ⟨_, List.mem_of_getElem? (i := 1) rfl, by decide, rfl⟩
theorem readDht22 : Statement .readDht22 := ⟨_, List.mem_of_getElem? (i := 2) rfl, by decide, rfl⟩

theorem rdStatus (d : Byte) : Statement (.rdStatus d) :=
  read_row rfl (List.mem_of_getElem? (i := 3) rfl) (by decide) (congrArg _ (busData_busWord ..))

theorem rdData0 (d : Byte) : Statement (.rdData0 d) :=
  read_row rfl (List.mem_of_getElem? (i := 4) rfl) (by decide) (congrArg _ (busData_busWord ..))

theorem rdData1 (d : Byte) : Statement (.rdData1 d) :=
  read_row rfl (List.mem_of_getElem? (i := 5) rfl) (by decide) (congrArg _ (busData_busWord ..))

theorem rdData2 (d : Byte) : Statement (.rdData2 d) :=
  read_row rfl (List.mem_of_getElem? (i := 6) rfl) (by decide) (congrArg _ (busData_busWord ..))

theorem rdData3 (d : Byte) : Statement (.rdData3 d) :=
  read_row rfl (List.mem_of_getElem? (i := 7) rfl) (by decide) (congrArg _ (busData_busWord ..))

theorem rdPinerr (d : Byte) : Statement (.rdPinerr d) :=
  read_row rfl (List.mem_of_getElem? (i := 8) rfl) (by decide) (congrArg _ (busData_busWord ..))

theorem rdState (d : Byte) : Statement (.rdState d) :=
  read_row rfl (List.mem_of_getElem? (i := 9) rfl) (by decide) (congrArg _ (busData_busWord ..))

theorem rdPos (d : Byte) : Statement (.rdPos d) :=
  read_row rfl (List.mem_of_getElem? (i := 10) rfl) (by decide) (congrArg _ (busData_busWord ..))

theorem rdBitcnt (d : Byte) : Statement (.rdBitcnt d) :=
  read_row rfl (List.mem_of_getElem? (i := 11) rfl) (by decide) (congrArg _ (busData_busWord ..))

theorem setLow : Statement .setLow := ⟨_, List.mem_of_getElem? (i := 0) rfl, by decide, rfl⟩
theorem setHigh : Statement .setHigh := ⟨_, List.mem_of_getElem? (i := 1) rfl, by decide, rfl⟩
theorem isLow : Statement .isLow := ⟨_, List.mem_of_getElem? (i := 2) rfl, by decide, rfl⟩
theorem isHigh : Statement .isHigh := ⟨_, List.mem_of_getElem? (i := 3) rfl, by decide, rfl⟩

theorem delayUs (n : BitVec 16) : Statement (.delayUs n) := by
  refine ⟨_, List.mem_of_getElem? (i := 4) rfl, ?_, congrArg _ (reqArg_reqWord 5 n)⟩
  rw [GtaRow.accepts, reqWord_and_opMask]
  decide

theorem delayMs (n : BitVec 16) : Statement (.delayMs n) := by
  refine ⟨_, List.mem_of_getElem? (i := 5) rfl, ?_, congrArg _ (reqArg_reqWord 6 n)⟩
  rw [GtaRow.accepts, reqWord_and_opMask]
  decide

end Sys2Proof.Laws.TableRow
end

