-- ==== Sys2Proof/Tests/Slice0.lean ====
section
/-! SUPPORT. Tests whose expected results are the spec's own (the vectors of 95_test_vectors.md and the encodings of
30_encoding.md), and for every statement with hypotheses a witness: a concrete state and operands that meet them. -/

namespace Sys2Proof.Tests

open Sys2Proof.Machine

/-! ## Helpers -/

/-- A small configuration: C = 1, S = 1, N = 2, `POLL_US` = 1, `SAMPLE_DELAY_US` = 2, and delays of 1. -/
def tc : Config := ⟨1, 1, 2, 1, 2, 1, 1, 1, 1⟩

/-- An idle block in the small configuration, with one host input and one draw waiting. -/
def idleWith (h : HostIn) (d : EnvDraw) : State :=
  { State.resetWith tc [true] with hostQ := [h], envQ := [d] }

/-- No access, `rst` = 0. -/
def quietIn : HostIn := ⟨false, none⟩

/-- A host access, `rst` = 0. -/
def accessIn (w : BusWord) : HostIn := ⟨false, some w⟩

/-- A line level drawn without a pin fault. -/
def lineAt (l : Bool) : EnvDraw := ⟨l, false, 0⟩

/-- A pin fault with code 0x5A, the line high. -/
def faultDraw : EnvDraw := ⟨true, true, 0x5A⟩

/-- A running exchange at a position, its phase as the engine keeps it, and the pad as the reset pulse has it. -/
def busyAt (e : EngSt) (ix : BitVec 3) (low : Bool) (h : HostIn) (d : EnvDraw) : State :=
  { idleWith h d with st := e, stepIx := ix, ph := e, padLow := low }

/-- VALIDATE with a frame received. -/
def validating (frame : BitVec 40) : State :=
  { busyAt .validate 0 false quietIn (lineAt true) with bitcnt := 40, sr := frame }

/-- An exchange that ended in an error at a position. -/
def failedAt (e : EngSt) (ix : BitVec 3) (r : Result) (code : Byte) (h : HostIn) : State :=
  { idleWith h (lineAt true) with st := .failed, stepIx := ix, ph := e, result := r, pinerr := code }

/-- After P1 of 95_test_vectors.md: frame 32 00 1B 00 4D, OK, DHT11. -/
def afterP1 : State :=
  { idleWith quietIn (lineAt true) with
    st := .done, ph := .validate, bitcnt := 40, sr := 0x32001B004D, data := ⟨0x32, 0x00, 0x1B, 0x00⟩ }

/-- After P4 of 95_test_vectors.md: a pin fault with code 0x5A at `SET_LOW`. -/
def afterP4 : State := failedAt .reset 0 .pinFault 0x5A quietIn

/-- Does the outcome go on to a state with this property? -/
def goesTo (o : Res) (p : State → Bool) : Bool :=
  match o with
  | .next t => p t
  | .fault _ | .refused _ => false

/-- Does the outcome refuse, for this reason? -/
def refuses (o : Res) (r : Refusal) : Bool :=
  match o with
  | .refused q => q == r
  | .next _ | .fault _ => false

/-! ## WellFormed refuses ill-formed instructions (R97, R133) -/

theorem test_wf_delayUs_0 : (Instr.delayUs 0).wellFormed = false := by decide
theorem test_wf_delayMs_0 : (Instr.delayMs 0).wellFormed = false := by decide
theorem test_wf_delayUs_max : (Instr.delayUs 65535).wellFormed = true := by decide
theorem test_wf_delayMs_1 : (Instr.delayMs 1).wellFormed = true := by decide

/-! ## Decoding: words written out from R91-R93, R96 and R97 -/

theorem test_decode_nop : decode (.hostBus 0b1000000000000) = some (.nop false) ∧
    decode (.hostBus 0b1000000000010) = some (.nop true) := by decide
theorem test_decode_readDht11 : decode (.hostBus 0b1000000000001) = some .readDht11 := by decide
theorem test_decode_readDht22 : decode (.hostBus 0b1000000000011) = some .readDht22 := by decide
theorem test_decode_rdStatus : decode (.hostBus 0b0000100000000) = some (.rdStatus 0) := by decide
theorem test_decode_rdData0 : decode (.hostBus 0b0001000000000) = some (.rdData0 0) := by decide
theorem test_decode_rdData1 : decode (.hostBus 0b0001111111111) = some (.rdData1 0xFF) := by decide
theorem test_decode_rdData2 : decode (.hostBus 0b0010000000001) = some (.rdData2 1) := by decide
theorem test_decode_rdData3 : decode (.hostBus 0b0010110000000) = some (.rdData3 0x80) := by decide
theorem test_decode_rdPinerr : decode (.hostBus 0b0011000000000) = some (.rdPinerr 0) := by decide
theorem test_decode_rdState : decode (.hostBus 0b0011100000000) = some (.rdState 0) := by decide
theorem test_decode_rdPos : decode (.hostBus 0b0100000000000) = some (.rdPos 0) := by decide
theorem test_decode_rdBitcnt : decode (.hostBus 0b0100100000000) = some (.rdBitcnt 0) := by decide
theorem test_decode_setLow : decode (.gtaReq 0b0010000000000000000) = some .setLow := by decide
theorem test_decode_setHigh : decode (.gtaReq 0b0100000000000000000) = some .setHigh := by decide
theorem test_decode_isLow : decode (.gtaReq 0b0110000000000000000) = some .isLow := by decide
theorem test_decode_isHigh : decode (.gtaReq 0b1000000000000000000) = some .isHigh := by decide
theorem test_decode_delayUs : decode (.gtaReq 0b1010000000000100011) = some (.delayUs 35) := by decide
theorem test_decode_delayMs : decode (.gtaReq 0b1100000000000010010) = some (.delayMs 18) := by decide

/-- V-HOST-7, V-HOST-8, V-HOST-21 to 23, V-GTA-17, V-GTA-18: R98's classes. -/
theorem test_decode_reserved : decodeHostBus 0x1005 = .reservedCommand ∧ decodeHostBus 0x10FF = .reservedCommand ∧
    decodeHostBus 0x0000 = .readCmd ∧ decodeHostBus 0x11FF = .readOnlyWrite ∧
    decodeHostBus 0x0A00 = .reservedAddress ∧ decodeHostBus 0x1F00 = .reservedAddress ∧
    decodeGtaReq 0x70000 = .reserved ∧ decodeGtaReq 0x10001 = .reserved ∧ decodeGtaReq 0 = .noRequest := by decide

/-! ## Words of the table, fetched and run -/

theorem test_table_words : decodeTableWord 16 0x1003 = some .readDht22 ∧
    decodeTableWord 24 0x50023 = some (.delayUs 35) ∧ decodeTableWord 16 0x2000 = none ∧
    decodeTableWord 24 0x80000 = none := by decide

/-- V-HOST-1 through the fetch: READ_DHT11 as the first word after reset. -/
theorem test_fetch_host : goesTo (step (State.reset.withFetchWord 16 0x1001)) fun t =>
    t.statusByte == 0x01 && t.stateByte == 0x01 && t.posByte == 0x01 && t.op == some .setLow := by decide

/-- The request presented is the word given, for each primitive. -/
theorem test_fetch_gta : [0x10000, 0x20000, 0x30000, 0x40000, 0x50023, 0x60012].all (fun w =>
    (State.reset.withFetchWord 24 w).request == BitVec.ofNat 19 w) = true := by decide

/-- The first step after reset runs each row's word and goes on (free draws and all). -/
theorem test_fetch_runs : [0x1000, 0x1001, 0x1003, 0x0100, 0x0200, 0x0300, 0x0400, 0x0500, 0x0600, 0x0700, 0x0800,
      0x0900].all (fun w => goesTo (step (State.reset.withFetchWord 16 w)) fun _ => true) = true ∧
    [0x10000, 0x20000, 0x30000, 0x40000, 0x50001, 0x60001].all (fun w =>
      goesTo (step (State.reset.withFetchWord 24 w)) fun _ => true) = true := by decide

/-! ## Host commands -/

/-- V-HOST-9 after P1: NOP leaves STATUS as it is. -/
theorem test_nop : goesTo (exec (.nop true) afterP1) fun t => t == { afterP1 with busRdata := 0 } := by decide

/-- V-HOST-3: accepted in DONE; everything of the last exchange is cleared. -/
theorem test_readDht22_after_P1 : goesTo (exec .readDht22 afterP1) fun t =>
    t.statusByte == 0x11 && t.data == ⟨0, 0, 0, 0⟩ && t.bitcntByte == 0 && t.posByte == 0x01 := by decide

/-- V-HOST-4: accepted in FAILED. -/
theorem test_readDht11_after_failure : goesTo (exec .readDht11 afterP4) fun t =>
    t.statusByte == 0x01 && t.posByte == 0x01 && t.pinerr == 0 := by decide

/-- V-HOST-5: ignored while busy. -/
theorem test_readDht22_busy : goesTo (exec .readDht22 (busyAt .reset 1 true quietIn (lineAt true))) fun t =>
    t == busyAt .reset 1 true quietIn (lineAt true) := by decide

/-- V-HOST-24: reset wins over a START. -/
theorem test_reset_wins : goesTo (step (idleWith ⟨true, some 0x1001⟩ (lineAt true))) fun t =>
    t.statusByte == 0 && t.st == .idle := by decide

/-- V-HOST-7 and V-HOST-23: refused. -/
theorem test_reserved_refused :
    refuses (step (idleWith (accessIn 0x1005) (lineAt true))) (.reservedCommand 0x1005) ∧
    refuses (step (idleWith (accessIn 0x0A00) (lineAt true))) (.reservedAddress 0x0A00) := by decide

/-! ## Register reads: V-HOST-17 (after P1) and V-HOST-20 (after P4) -/

theorem test_rdStatus : goesTo (exec (.rdStatus 0) afterP1) (·.busRdata == 0x02) ∧
    goesTo (exec (.rdStatus 0) afterP4) (·.busRdata == 0x06) := by decide
theorem test_rdData0 : goesTo (exec (.rdData0 0) afterP1) (·.busRdata == 0x32) := by decide
theorem test_rdData1 : goesTo (exec (.rdData1 0) { afterP1 with data := ⟨1, 2, 3, 4⟩ }) (·.busRdata == 2) := by decide
theorem test_rdData2 : goesTo (exec (.rdData2 0) afterP1) (·.busRdata == 0x1B) := by decide
theorem test_rdData3 : goesTo (exec (.rdData3 0) { afterP1 with data := ⟨1, 2, 3, 4⟩ }) (·.busRdata == 4) := by decide
theorem test_rdPinerr : goesTo (exec (.rdPinerr 0) afterP4) (·.busRdata == 0x5A) := by decide
theorem test_rdState : goesTo (exec (.rdState 0) afterP1) (·.busRdata == 0x06) ∧
    goesTo (exec (.rdState 0) afterP4) (·.busRdata == 0x07) := by decide
/-- V-HOST-12: RESET step 1 reads 0x09. -/
theorem test_rdPos : goesTo (exec (.rdPos 0) (busyAt .reset 1 true quietIn (lineAt true))) (·.busRdata == 0x09) := by
  decide
theorem test_rdBitcnt : goesTo (exec (.rdBitcnt 0) afterP1) (·.busRdata == 0x28) := by decide

/-! ## GTA primitives: V-GTA-1 to V-GTA-13 -/

theorem test_setLow : goesTo (exec .setLow (idleWith quietIn (lineAt true))) (fun t =>
      t.gtaRsp.word == 0x400 && t.pinDriveLow) ∧
    goesTo (exec .setLow (idleWith quietIn faultDraw)) (fun t => t.gtaRsp.word == 0x65A && !t.pinDriveLow) := by decide
theorem test_setHigh : goesTo (exec .setHigh { idleWith quietIn (lineAt true) with padLow := true }) (fun t =>
      t.gtaRsp.word == 0x400 && !t.pinDriveLow) ∧
    goesTo (exec .setHigh { idleWith quietIn ⟨true, true, 0x33⟩ with padLow := true }) (fun t =>
      t.gtaRsp.word == 0x633 && t.pinDriveLow) := by decide
theorem test_isLow : goesTo (exec .isLow { idleWith quietIn (lineAt true) with sync := [false] }) (fun t =>
      t.gtaRsp.word == 0x500) ∧
    goesTo (exec .isLow (idleWith quietIn (lineAt false))) (fun t => t.gtaRsp.word == 0x400) := by decide
theorem test_isHigh : goesTo (exec .isHigh (idleWith quietIn (lineAt false))) (fun t => t.gtaRsp.word == 0x500) ∧
    goesTo (exec .isHigh (idleWith quietIn ⟨true, true, 0x42⟩)) (fun t => t.gtaRsp.word == 0x642) := by decide
/-- V-GTA-10: with S = 0 the answer is the line's. -/
theorem test_isHigh_unsynchronised :
    goesTo (exec .isHigh { idleWith quietIn (lineAt false) with cfg := { tc with syncStages := 0 } }) (fun t =>
      t.gtaRsp.word == 0x400) := by decide
/-- V-GTA-12 (C = 4: `dcnt` = 139 after the issue cycle) and V-GTA-13 (length 1: answered at once, `dcnt` not loaded). -/
theorem test_delayUs :
    goesTo (exec (.delayUs 35) { idleWith quietIn (lineAt true) with cfg := { tc with cycPerUs := 4 } }) (fun t =>
      t.dcnt == 139 && !t.gtaRsp.done) ∧
    goesTo (exec (.delayUs 1) (idleWith quietIn faultDraw)) (fun t => t.dcnt == 0 && t.gtaRsp.word == 0x400) := by decide
/-- V-GTA-15: C = 4, 72000 cycles. -/
theorem test_delayMs :
    goesTo (exec (.delayMs 18) { idleWith quietIn (lineAt true) with cfg := { tc with cycPerUs := 4 } }) (fun t =>
      t.dcnt == 71999 && t.gop == .delayMs) := by decide
/-- V-GTA-18. -/
theorem test_delay_0_refused : refuses (exec (.delayUs 0) (idleWith quietIn (lineAt true))) (.reservedRequest 0x50000) ∧
    refuses (exec (.delayMs 0) (idleWith quietIn (lineAt true))) (.reservedRequest 0x60000) := by decide

/-- R37: a single-cycle primitive holds `gop` in its issue cycle only, a delay from its issue cycle to its last. -/
theorem test_gop_single : (busyAt .reset 0 false quietIn (lineAt true)).gopInCycle = .setLow ∧
    goesTo (exec .setLow (busyAt .reset 0 false quietIn (lineAt true))) (fun t => t.gop == .none) := by decide
theorem test_gop_delay : (busyAt .bitLoop 1 false quietIn (lineAt true)).gopInCycle = .delayUs ∧
    goesTo (step (busyAt .bitLoop 1 false quietIn (lineAt true))) (fun t => t.dcnt == 1 && t.gopInCycle == .delayUs) ∧
    goesTo (runFor 2 (busyAt .bitLoop 1 false quietIn (lineAt true))) (fun t => t.gop == .none && t.gopInCycle == .isHigh) := by
  decide

/-! ## The engine: V-CHK-1, V-CHK-5, and a bit committed (R179) -/

theorem test_validate_ok : goesTo (step (validating 0x32001B004D)) fun t =>
    t.statusByte == 0x02 && t.data == ⟨0x32, 0x00, 0x1B, 0x00⟩ && t.posByte == 0x05 := by decide
theorem test_validate_mismatch : goesTo (step (validating 0x8000830000)) fun t =>
    t.statusByte == 0x0E && t.data == ⟨0, 0, 0, 0⟩ && t.bitcntByte == 0x28 := by decide
theorem test_commit_bit : goesTo (step { busyAt .bitLoop 3 false quietIn (lineAt false) with
      sync := [false], b := true, bitcnt := 39, sr := 5 }) fun t =>
    t.sr == 11 && t.bitcnt == 40 && t.st == .validate := by decide

/-! ## Witnesses: states that meet the hypotheses of the statements -/

theorem tc_inRange : tc.InRange := by decide

/-- The invariant does not speak of the inputs. -/
theorem inv_withInputs {s : State} (h : s.Inv) (q : List HostIn) (e : List EnvDraw) :
    State.Inv { s with hostQ := q, envQ := e } := by
  cases h
  constructor <;> assumption

/-- Any idle block of the small configuration, whatever is presented to it. -/
theorem inv_idleWith (h : HostIn) (d : EnvDraw) : (idleWith h d).Inv := by
  refine inv_withInputs (s := idleWith quietIn (lineAt true)) ?_ [h] [d]
  constructor <;> first | exact tc_inRange | (intro h; exact absurd rfl h) | (intro h; cases h; done) | decide | rfl

/-- RESET, ACKWAIT1 and BITLOOP positions of a fresh exchange, the pad low in RESET's steps 1 and 2. -/
theorem inv_busyAt {e : EngSt} {ix : BitVec 3} {low : Bool} (h : HostIn) (d : EnvDraw)
    (hp : (e, ix, low) ∈ [(.reset, 0, false), (.reset, 1, true), (.reset, 2, true), (.reset, 3, false),
      (.ackWait1, 0, false), (.bitLoop, 0, false), (.bitLoop, 1, false)]) : (busyAt e ix low h d).Inv := by
  refine inv_withInputs (s := busyAt e ix low quietIn (lineAt true)) ?_ [h] [d]
  simp only [List.mem_cons, Prod.mk.injEq, List.not_mem_nil, or_false] at hp
  rcases hp with hp | hp | hp | hp | hp | hp | hp <;> obtain ⟨rfl, rfl, rfl⟩ := hp <;> constructor <;>
    first | exact tc_inRange | (intro h; exact absurd rfl h) | (intro h; cases h; done) | decide | rfl |
      (show (0 : Nat) < 40; decide)

/-- Failed exchanges: at `SET_LOW`, W1, W2 and a bit's `WAIT_HIGH`. -/
theorem inv_failedAt {e : EngSt} {ix : BitVec 3} {r : Result} {code : Byte} (h : HostIn)
    (hp : (e, ix, r, code) ∈ [(.reset, 0, .pinFault, 0x5A), (.reset, 4, .pinFault, 0), (.ackWait1, 0, .timeout, 0),
      (.bitLoop, 0, .timeout, 0)]) : (failedAt e ix r code h).Inv := by
  refine inv_withInputs (s := failedAt e ix r code quietIn) ?_ [h] [lineAt true]
  simp only [List.mem_cons, Prod.mk.injEq, List.not_mem_nil, or_false] at hp
  rcases hp with hp | hp | hp | hp <;> obtain ⟨rfl, rfl, rfl, rfl⟩ := hp <;> constructor <;>
    first | exact tc_inRange | (intro h; exact absurd rfl h) | (intro h; cases h; done) | decide | rfl |
      (intro _; exact ⟨_, rfl, rfl⟩) | (show (0 : Nat) < 40; decide)

/-- After P1 the invariant holds: the payload's checksum is the fifth byte. -/
theorem inv_afterP1 : afterP1.Inv := by
  constructor <;> first | exact tc_inRange | (intro h; exact absurd rfl h) | (intro h; cases h; done) | decide | rfl |
    (intro _; rfl)

/-- A frame whose checksum does not fit, before and after VALIDATE (V-CHK-2). -/
theorem inv_checksumMismatch : State.Inv { validating 0x32001B004C with st := .failed, result := .checksumMismatch } := by
  constructor <;> first | exact tc_inRange | (intro h; exact absurd rfl h) | (intro h; cases h; done) | decide | rfl |
    (intro _; rfl)

/-- EncodeOfDecode; ReservedWordsAreClassified at the boundaries of each class. -/
theorem witness_encodings : decode (.gtaReq 0x6FFFF) = some (.delayMs 65535) ∧
    (cmdReserved 0x04 ≠ 0 ∧ cmdReserved 0x80 ≠ 0 ∧ cmdReserved 0x03 = 0) ∧
    (1 ≤ (1 : BitVec 4).toNat ∧ (9 : BitVec 4).toNat ≤ 9 ∧ 0xA ≤ (0xA : BitVec 4).toNat ∧ 0xA ≤ (0xF : BitVec 4).toNat) ∧
    (1 ≤ (1 : BitVec 3).toNat ∧ (4 : BitVec 3).toNat ≤ 4 ∧ (1 : BitVec 16) ≠ 0) := by decide

/-- StepRunsHostAccess, StartWhileBusyIsLost. -/
theorem witness_hostAccess : (idleWith (accessIn 0x0100) (lineAt true)).hostIn = ⟨false, some 0x0100⟩ ∧
    decodeHostBus 0x0100 = .instr (.rdStatus 0) ∧ (busyAt .reset 1 true quietIn (lineAt true)).busy = true := by decide

/-- StepRunsEngineRequest, at a pin primitive and at a delay. -/
theorem witness_engineRequest :
    (let s := busyAt .reset 0 false quietIn (lineAt true)
     s.hostIn = ⟨false, none⟩ ∧ s.busy = true ∧ s.dcnt = 0 ∧ s.op = some .setLow ∧ requestOf .setLow s = some .setLow) ∧
    (let s := busyAt .bitLoop 1 false quietIn (lineAt true)
     s.hostIn = ⟨false, none⟩ ∧ s.busy = true ∧ s.dcnt = 0 ∧ s.op = some .sampleDelay ∧
       requestOf .sampleDelay s = some (.delayUs 2)) := by decide

/-- StartClearsTheExchange and CmdWritesAreClassified: busy and not busy, START and not, reserved and not. -/
theorem witness_commands : (afterP1.busy = false ∧ (busyAt .validate 0 false quietIn (lineAt true)).busy = true) ∧
    (cmdReserved 0x04 ≠ 0 ∧ cmdReserved 0x03 = 0) ∧ (cmdStart 0x02 = false ∧ cmdStart 0x03 = true) := by decide

/-- RegisterMapReads, RegisterMapEdges, ReadsOnlyDriveTheBus: the boundary addresses, and a step without a read. -/
theorem witness_registerMap : (1 : BitVec 4) ≠ 0 ∧ 0xA ≤ (0xA : BitVec 4).toNat ∧ (9 : BitVec 4).toNat ≤ 9 ∧
    busWe 0x0900 = false ∧ decodeHostBus 0x0900 ≠ .reservedAddress ∧ busWe 0x1000 = true ∧
    (idleWith (accessIn 0x1000) (lineAt true)).hostIn.access = some 0x1000 ∧
    goesTo (step (idleWith (accessIn 0x1000) (lineAt true))) (fun _ => true) = true := by decide

/-- RdStatusValue, RdDataValues, RdPinerrValue, RdStateValue, RdPosValue, RdBitcntValue: a busy state, and one for
every outcome. -/
theorem witness_reads :
    ((busyAt .reset 0 false quietIn (lineAt true)).Inv ∧ (busyAt .reset 0 false quietIn (lineAt true)).busy = true) ∧
    (afterP1.Inv ∧ afterP1.ended = true ∧ afterP1.st = .done ∧ afterP1.result = .ok) ∧
    (afterP4.Inv ∧ afterP4.st = .failed ∧ afterP4.result = .pinFault ∧ afterP4.pinerr ≠ 0) ∧
    (let s := failedAt .ackWait1 0 .timeout 0 quietIn
     s.Inv ∧ s.ended = true ∧ s.result = .timeout) ∧
    (let s : State := { validating 0x32001B004C with st := .failed, result := .checksumMismatch }
     s.Inv ∧ s.ended = true ∧ s.result = .checksumMismatch) :=
  ⟨⟨inv_busyAt _ _ (by decide), rfl⟩, ⟨inv_afterP1, rfl, rfl, rfl⟩, ⟨inv_failedAt _ (by decide), rfl, rfl, by decide⟩,
    ⟨inv_failedAt _ (by decide), rfl, rfl⟩, ⟨inv_checksumMismatch, rfl, rfl⟩⟩

/-- SetLowDrivesThePad, SetHighReleasesThePad, IsLowAnswersFromSeen, IsHighAnswersFromSeen: a draw with a fault and one
without. -/
theorem witness_pinPrimitives : (idleWith quietIn faultDraw).draw.pinFault = true ∧
    (idleWith quietIn (lineAt true)).draw.pinFault = false := by decide

/-- DelayUsTakesExactlyItsLength, DelayMsTakesExactlyItsLength: the shortest and the longest length. -/
theorem witness_delays : (1 : BitVec 16) ≠ 0 ∧ (65535 : BitVec 16) ≠ 0 ∧
    1 ≤ (idleWith quietIn (lineAt true)).cfg.cycPerUs ∧ (idleWith quietIn (lineAt true)).dcnt = 0 ∧
    (idleWith quietIn (lineAt true)).gop = .none := by decide

/-- PinFaultSampledInIssueCyclesOnly: no request, and the request of a delay. -/
theorem witness_noPinRequest : reqOp (idleWith quietIn (lineAt true)).request = 0 ∧
    5 ≤ (reqOp (busyAt .reset 3 false quietIn (lineAt true)).request).toNat := by decide

/-- LineIsWiredAnd, ResetPulsePadSteps. -/
theorem witness_resetPulse :
    (let s := busyAt .reset 0 false quietIn (lineAt true)
     s.hostIn.plain = true ∧ s.hostIn = ⟨false, none⟩ ∧ s.st = .reset ∧ s.stepIx = 0 ∧ s.dcnt = 0 ∧
       s.draw.pinFault = false) ∧
    (let s := busyAt .reset 2 true quietIn faultDraw
     s.hostIn = ⟨false, none⟩ ∧ s.st = .reset ∧ s.stepIx = 2 ∧ s.dcnt = 0 ∧ s.draw.pinFault = true) := by decide

/-- SeenIsTheLineSCyclesAgo: with one stage, and with none. -/
theorem witness_seen :
    (let s := idleWith quietIn (lineAt false)
     s.sync.length = s.cfg.syncStages ∧ (∀ h ∈ s.hostQ.take s.cfg.syncStages, h.rst = false) ∧
       goesTo (runFor s.cfg.syncStages s) (fun t => !t.seen) = true) ∧
    (let s : State := { idleWith quietIn (lineAt false) with cfg := { tc with syncStages := 0 }, sync := [] }
     s.sync.length = s.cfg.syncStages ∧ (∀ h ∈ s.hostQ.take s.cfg.syncStages, h.rst = false) ∧
       goesTo (runFor s.cfg.syncStages s) (fun t => !t.seen) = true) := by decide

/-- PhKeepsTheLastBusyState, NoPartialResult, PositionsFollowTheTransitionTable, StepKeepsInv,
OnlyReservedWordsStopTheBlock: a step from a state with the invariant, `rst` = 0. -/
theorem witness_step : (busyAt .reset 0 false quietIn (lineAt true)).Inv ∧
    (busyAt .reset 0 false quietIn (lineAt true)).hostIn.plain = true ∧
    (busyAt .reset 0 false quietIn (lineAt true)).hostIn.rst = false ∧
    goesTo (step (busyAt .reset 0 false quietIn (lineAt true))) (fun t => t.stepIx == 1) = true :=
  ⟨inv_busyAt _ _ (by decide), by decide, by decide, by decide⟩

/-- A state whose inputs are one host input is plain for any number of cycles if that input is. -/
theorem plainFor_of_single {s : State} {h : HostIn} (hq : s.hostQ = [h]) (hp : h.plain = true) (n : Nat) :
    s.plainFor n := by
  intro g hg
  have := List.mem_of_mem_take hg
  rw [hq, List.mem_singleton] at this
  rw [this, hp]

/-- FixedDelaysHoldTheirPosition: each of the three delays. -/
theorem witness_fixedDelays :
    (let s := busyAt .reset 1 true quietIn (lineAt true)
     s.st = .reset ∧ s.stepIx = 1 ∧ (s.cfg.resetLowMs s.fam).toNat * 1000 * s.cfg.cycPerUs = 1000 ∧ s.Inv ∧ s.dcnt = 0 ∧
       s.plainFor 1000) ∧
    (let s := busyAt .reset 3 false quietIn (lineAt true)
     s.st = .reset ∧ s.stepIx = 3 ∧ (s.cfg.releaseUs s.fam).toNat * s.cfg.cycPerUs = 1 ∧ s.Inv ∧ s.dcnt = 0 ∧
       s.plainFor 1) ∧
    (let s := busyAt .bitLoop 1 false quietIn (lineAt true)
     s.st = .bitLoop ∧ s.stepIx = 1 ∧ s.cfg.sampleDelayUs.toNat * s.cfg.cycPerUs = 2 ∧ s.Inv ∧ s.dcnt = 0 ∧
       s.plainFor 2) :=
  ⟨⟨rfl, rfl, rfl, inv_busyAt _ _ (by decide), rfl, plainFor_of_single rfl (by decide) _⟩,
    ⟨rfl, rfl, rfl, inv_busyAt _ _ (by decide), rfl, plainFor_of_single rfl (by decide) _⟩,
    ⟨rfl, rfl, rfl, inv_busyAt _ _ (by decide), rfl, plainFor_of_single rfl (by decide) _⟩⟩

/-- A line that stays high while W2 waits for it to go low. -/
def waitingForLow : State :=
  { busyAt .ackWait1 0 false quietIn (lineAt true) with envQ := [lineAt true, lineAt true, lineAt true, lineAt true] }

theorem inv_waitingForLow : waitingForLow.Inv :=
  inv_withInputs (inv_busyAt (e := .ackWait1) (ix := 0) (low := false) quietIn (lineAt true) (by decide)) _ _

/-- WaitTimesOutAfterNIterations: both iterations see the line high and no fault. -/
theorem witness_waitTimesOut : waitingForLow.Inv ∧ waitingForLow.busy = true ∧ waitingForLow.op = some (.wait false) ∧
    waitingForLow.iter = 0 ∧ waitingForLow.wph = false ∧
    waitingForLow.plainFor (waitingForLow.cfg.timeoutIters * waitingForLow.cfg.iterCyc) ∧
    ∀ i < waitingForLow.cfg.timeoutIters, ∀ u, runFor (i * waitingForLow.cfg.iterCyc) waitingForLow = .next u →
      u.seen = !false ∧ u.draw.pinFault = false := by
  refine ⟨inv_waitingForLow, rfl, rfl, rfl, rfl, plainFor_of_single rfl (by decide) _, ?_⟩
  intro i hi u h
  have hi : i < 2 := hi
  interval_cases i <;> injection h with h <;> subst h <;> decide

/-- WaitEndsAtItsFirstMatchOrFault: a match at the first sample (j = 0), and a fault at the last one (j = N - 1). -/
theorem witness_waitEnds :
    (let s := busyAt .bitLoop 0 false quietIn (lineAt true)
     s.Inv ∧ s.op = some (.wait true) ∧ s.iter = 0 ∧ s.wph = false ∧ 0 < s.cfg.timeoutIters ∧
       s.plainFor (0 * s.cfg.iterCyc + 1) ∧ goesTo (runFor (0 * s.cfg.iterCyc) s) (fun u =>
         !u.draw.pinFault && u.seen == true) = true) ∧
    (let s : State := { waitingForLow with envQ := [lineAt true, lineAt true, faultDraw] }
     s.op = some (.wait false) ∧ 1 < s.cfg.timeoutIters ∧ s.plainFor (1 * s.cfg.iterCyc + 1) ∧
       s.seen = !false ∧ s.draw.pinFault = false ∧ goesTo (runFor (1 * s.cfg.iterCyc) s) (fun u =>
         u.draw.pinFault) = true) :=
  ⟨⟨inv_busyAt _ _ (by decide), rfl, rfl, rfl, by decide, plainFor_of_single rfl (by decide) _, by decide⟩,
    ⟨rfl, by decide, plainFor_of_single rfl (by decide) _, by decide, by decide, by decide⟩⟩

/-- AckTransitTakesOneCycle, BitSampleWritesB, ClosingWaitCommitsTheBit. -/
theorem witness_bitLoop :
    (let s := busyAt .ackWait2 0 false quietIn (lineAt true)
     s.hostIn = ⟨false, none⟩ ∧ s.st = .ackWait2 ∧ s.stepIx = 0 ∧ s.dcnt = 0) ∧
    (let s := busyAt .bitLoop 2 false quietIn (lineAt true)
     s.hostIn = ⟨false, none⟩ ∧ s.stepIx = 2 ∧ s.dcnt = 0 ∧ s.draw.pinFault = false) ∧
    (busyAt .bitLoop 2 false quietIn faultDraw).draw.pinFault = true ∧
    (let s : State := { busyAt .bitLoop 3 false quietIn (lineAt false) with sync := [false], bitcnt := 39 }
     s.hostIn = ⟨false, none⟩ ∧ s.stepIx = 3 ∧ s.wph = false ∧ s.dcnt = 0 ∧ s.draw.pinFault = false ∧
       s.seen = false) := by decide

/-- FortyBitsPackMostSignificantFirst. -/
theorem witness_fortyBits : (List.replicate 40 true).length = 40 := rfl

/-- An idle block asked for an exchange, and no sensor on the line for n cycles. -/
def startAlone (n : Nat) : State :=
  { idleWith (accessIn 0x1001) (lineAt true) with envQ := List.replicate n (lineAt true) }

theorem inv_startAlone (n : Nat) : (startAlone n).Inv :=
  inv_withInputs (inv_idleWith quietIn (lineAt true)) _ _

/-- EveryExchangeEndsWithinTmax, NoSensorTimesOutAtW2. -/
theorem witness_exchange :
    (startAlone 1009).Inv ∧ (startAlone 1009).busy = false ∧
    (startAlone 1009).hostIn = ⟨false, some (startWord .dht11)⟩ ∧
    (startAlone 1009).plainFor (1 + maxCycles tc .dht11) ∧
    (startAlone 1009).plainFor (1 + noSensorCycles tc .dht11) ∧
    (startAlone 1009).noSensorFor (1 + noSensorCycles tc .dht11) ∧
    tc.syncStages ≤ (tc.releaseUs .dht11).toNat * tc.cycPerUs := by
  refine ⟨inv_startAlone _, rfl, rfl, plainFor_of_single rfl (by decide) _, plainFor_of_single rfl (by decide) _, ⟨?_, ?_⟩,
    by decide⟩
  · show _ ≤ (List.replicate 1009 (lineAt true)).length
    rw [List.length_replicate]
    decide
  · intro d hd
    have := List.eq_of_mem_replicate (List.mem_of_mem_take hd)
    rw [this]
    decide

/-- VectorSensorFrameIsDelivered: P1's frame, sent to an idle block in VC. -/
theorem witness_sensor :
    let n := 1 + maxCycles .vc .dht11
    let s : State := { State.resetWith .vc [true, true] with
      hostQ := [accessIn 0x1001], envQ := sensorDraws .vc .dht11 .vector 0x32001B004D n }
    s.Inv ∧ s.cfg = .vc ∧ s.busy = false ∧ s.hostIn = ⟨false, some (startWord .dht11)⟩ ∧ s.plainFor n ∧
      s.envQ.take n = sensorDraws .vc .dht11 .vector 0x32001B004D n := by
  intro n s
  refine ⟨inv_withInputs (s := State.resetWith .vc [true, true]) ?_ _ _, rfl, rfl, rfl, plainFor_of_single rfl (by decide) _,
    ?_⟩
  · constructor <;>
      first | decide | rfl | (intro h; exact absurd rfl h) | (intro h; cases h)
  · show (sensorDraws .vc .dht11 .vector 0x32001B004D n).take n = _
    rw [sensorDraws, ← List.map_take, List.take_take, Nat.min_self]

/-- In the low of a reset pulse, with two cycles of its delay to go. -/
def inDelay : State := { busyAt .reset 1 true quietIn (lineAt true) with dcnt := 2, gop := .delayMs }

theorem inv_inDelay : inDelay.Inv := by
  have h := inv_busyAt (e := .reset) (ix := 1) (low := true) quietIn (lineAt true) (by decide)
  exact { h with
    gtaIdle := fun hd => by cases hd
    gtaDelay := fun _ => ⟨rfl, .resetLow, 1000, rfl, rfl, by decide⟩ }

/-- GopNamesThePrimitiveInExecution: an issue cycle, a running delay, a block at rest, and a step that answers DONE. -/
theorem witness_gop :
    (let s := busyAt .reset 0 false quietIn (lineAt true)
     s.op = some .setLow ∧ s.dcnt = 0 ∧ s.Inv ∧ goesTo (step s) (fun t => t.gtaRsp.done) = true) ∧
    (inDelay.Inv ∧ inDelay.dcnt ≠ 0) ∧ (afterP1.Inv ∧ afterP1.busy = false) :=
  ⟨⟨rfl, rfl, inv_busyAt _ _ (by decide), by decide⟩, ⟨inv_inDelay, by decide⟩, inv_afterP1, rfl⟩

/-- PlatformConditionsBoundTheSamples: the window of the vector sensor in VC, at both ends of δ and of T_H0. -/
theorem witness_platform : SensorTiming.vector.SampleWindow .vc ∧ 0 ≤ Config.vc.pollUs.toNat * Config.vc.cycPerUs ∧
    1 ≤ Config.vc.pollUs.toNat * Config.vc.cycPerUs ∧ (26 : Nat) ≤ 26 ∧ (28 : Nat) ≤ 28 := by decide

/-- ValidateComparesAndCommits: a frame that fits, and one that does not. -/
theorem witness_validate :
    (let s := validating 0x32001B004D
     s.hostIn = ⟨false, none⟩ ∧ s.st = .validate ∧ s.stepIx = 0 ∧ s.dcnt = 0 ∧
       s.sr = (0x32 : Byte) ++ (0x00 : Byte) ++ (0x1B : Byte) ++ (0x00 : Byte) ++ (0x4D : Byte)) ∧
    chk 0x32 0x00 0x1B 0x00 = 0x4D ∧ chk 0x80 0x00 0x83 0x00 ≠ 0x00 := by decide

/-- FailureEntryKeepsTheRest, PinFaultFailsTheExchange: a fault at `SET_LOW` and at a wait's sample. -/
theorem witness_failure :
    (let s := busyAt .reset 0 false quietIn faultDraw
     s.hostIn.plain = true ∧ s.busy = true ∧ s.op = some .setLow ∧ EngOp.setLow.usesPin = true ∧ s.dcnt = 0 ∧
       s.draw.pinFault = true ∧ goesTo (step s) (fun t => t.st == .failed) = true) ∧
    (let s := busyAt .ackWait1 0 false quietIn faultDraw
     s.hostIn.plain = true ∧ s.op = some (.wait false) ∧ s.wph = false ∧ s.draw.pinFault = true ∧
       goesTo (step s) (fun t => t.st == .failed) = true) := by decide

/-- EndedBlockIsStable, beside a read; FailedPadIsLowOnlyAfterAPadFault. -/
theorem witness_ended :
    (let s := failedAt .reset 0 .pinFault 0x5A (accessIn 0x0100)
     s.Inv ∧ s.ended = true ∧ s.st = .failed ∧ s.hostIn.plain = true ∧ s.hostIn.noStart = true) :=
  ⟨inv_failedAt _ (by decide), rfl, rfl, by decide, by decide⟩

/-- A failed `SET_HIGH`: the pad stays low (V-ERR-2). -/
theorem witness_padStuckLow :
    State.Inv { failedAt .reset 2 .pinFault 0x33 quietIn with padLow := true } ∧
    State.posByte { failedAt .reset 2 .pinFault 0x33 quietIn with padLow := true } = 0x11 := by
  refine ⟨?_, by decide⟩
  constructor <;> first | exact tc_inRange | (intro h; exact absurd rfl h) | (intro h; cases h; done) | decide |
    (intro _; exact ⟨_, rfl, rfl⟩) | rfl

/-- ResetPutsEveryElementAtItsValue, ResetWinsOverEverything: a write, a read, and no access. -/
theorem witness_reset :
    (busyAt .bitLoop 3 false ⟨true, some 0x1001⟩ (lineAt true)).hostIn.rst = true ∧ busWe 0x1001 = true ∧
    busWe 0x0100 = false ∧ decodeHostBus 0x0100 ≠ .reservedAddress ∧
    (busyAt .bitLoop 3 false ⟨true, none⟩ (lineAt true)).hostIn = ⟨true, none⟩ := by decide

/-- PollingDoesNotDisturbTheExchange: a host that polls, and one that does not. -/
theorem witness_polling :
    (∀ h ∈ [accessIn 0x0100, accessIn 0x1000, accessIn 0x1100].take 3, h.plain = true ∧ h.noStart = true) ∧
    (∀ h ∈ ([] : List HostIn).take 3, h.plain = true ∧ h.noStart = true) ∧
    goesTo (runFor 3 { waitingForLow with hostQ := [accessIn 0x0100, accessIn 0x1000, accessIn 0x1100] })
      (fun t => t.st == .ackWait1) = true := by decide

end Sys2Proof.Tests
end

section
/-! PROOFS. A cycle with `rst` = 0, and the host's port for each kind of access; O6. -/

namespace Sys2Proof.Machine

/-- With `rst` = 0 the step is an ordinary cycle: the host's port, the engine, the end of the cycle (R5). -/
theorem step_of_rst_low {s : State} (h : s.hostIn.rst = false) : step s =
    andThen (hostPort s) fun s1 => andThen (engineAfterHost s s1) fun s2 => .next (endCycle s s2) := by
  simp [step, clockCycle, runCycle, h]

/-- An access that decodes to an instruction runs it on the state at the start of the cycle (R62, R63). -/
theorem hostPort_of_instr {s : State} {w : BusWord} {i : Instr} (ha : s.hostIn.access = some w)
    (hd : decodeHostBus w = .instr i) : hostPort s = exec i s := by
  simp only [hostPort, ha, hd]

/-- Settles O6: with `rst` = 0 the step starts at the host's port, and the port runs the decoded access. -/
theorem stepRunsHostAccess : Obligations.StepRunsHostAccess := by
  intro s w i hin hd
  have hrst : s.hostIn.rst = false := by rw [hin]
  have hport : hostPort s = exec i s := hostPort_of_instr (by rw [hin]) hd
  rw [step_of_rst_low hrst, hport]

end Sys2Proof.Machine
end

section
/-! PROOFS. What an engine's cycle leaves alone, and `ph` across a step; O31. -/

namespace Sys2Proof.Machine

/-- A completed operation changes the position and, where it commits a bit, the receive registers (R160, R179). -/
theorem advance_frame (s : State) : advance s =
    { s with st := (advance s).st, stepIx := (advance s).stepIx, sr := (advance s).sr,
             bitcnt := (advance s).bitcnt } := by
  unfold advance
  split
  case h_4 => obtain ⟨-, h⟩ | ⟨-, h⟩ := commitBit_cases s <;> rw [h]
  all_goals rfl

/-- VALIDATE changes the engine's state, the payload and the outcome (R221). -/
theorem validate_frame (s : State) : validate s =
    { s with st := (validate s).st, data := (validate s).data, result := (validate s).result,
             pinerr := (validate s).pinerr } := by
  obtain ⟨-, h⟩ | ⟨-, h⟩ := validate_cases s
  · rw [h]
  · rw [h]; rfl

/-- The engine's reaction to a response changes the exchange's own fields, and neither DATA nor `ph`. -/
theorem engineReact_frame (op : EngOp) (s : State) : engineReact op s =
    { s with st := (engineReact op s).st, stepIx := (engineReact op s).stepIx, iter := (engineReact op s).iter,
             wph := (engineReact op s).wph, bitcnt := (engineReact op s).bitcnt, sr := (engineReact op s).sr,
             b := (engineReact op s).b, result := (engineReact op s).result,
             pinerr := (engineReact op s).pinerr } := by
  cases hd : s.gtaRsp.done with
  | false => rw [engineReact_of_notDone hd]
  | true =>
    rw [engineReact_of_done hd]
    cases op with
    | setLow | setHigh | sample =>
      dsimp only
      split
      · rfl
      · rw [advance_frame]
    | wait level =>
      dsimp only
      split
      · obtain ⟨-, h⟩ | ⟨-, h⟩ := endOfPoll_cases s
        · rw [h]
        · rw [h]; rfl
      · obtain ⟨-, h⟩ | ⟨-, -, h⟩ | ⟨-, -, h⟩ := afterSample_cases s
        · rw [h]; rfl
        · rw [h, advance_frame]
        · rw [h]
    | resetLow | release | sampleDelay => dsimp only; rw [advance_frame]
    | transit | validate => rfl

/-- An engine's cycle writes neither the parameters, `ph`, the family and the synchroniser, nor the host's port and
the inputs. -/
theorem runOp_frame {s t : State} {op : EngOp} (hop : s.op = some op) (h : runOp op s = .next t) : t =
    { t with cfg := s.cfg, ph := s.ph, fam := s.fam, sync := s.sync, busRdata := s.busRdata, hostQ := s.hostQ,
             envQ := s.envQ, drawIx := s.drawIx } := by
  obtain ⟨-, rfl⟩ | ⟨-, rfl⟩ | ⟨-, -, -, rfl⟩ | ⟨-, i, u, hi, hu, rfl⟩ := runOp_cases (busy_of_op hop) hop h
  · rw [advance_frame, gtaNoRequest_frame]
  · rw [validate_frame, gtaNoRequest_frame]
  · rw [engineReact_frame, gtaNoRequest_frame]
  · rw [engineReact_frame, exec_primitive_frame (decodeGtaReq_primitive (decodeGtaReq_requestWord hi)) hu]
    rfl

theorem runOp_cfg {s t : State} {op : EngOp} (hop : s.op = some op) (h : runOp op s = .next t) : t.cfg = s.cfg := by
  rw [runOp_frame hop h]

theorem runOp_ph {s t : State} {op : EngOp} (hop : s.op = some op) (h : runOp op s = .next t) : t.ph = s.ph := by
  rw [runOp_frame hop h]

@[simp] theorem endCycle_busy (s0 s : State) : (endCycle s0 s).busy = s.busy := rfl

/-- At the end of a cycle whose operations left `ph` alone, or made it the busy state they entered, `ph` is the last
busy state (R23). -/
theorem endCycle_ph_of_kept {s0 s : State} (h : s.busy = false → s.ph = s0.ph) :
    (endCycle s0 s).ph = if (endCycle s0 s).busy = true then (endCycle s0 s).st else s0.ph := by
  cases hb : s.busy with
  | true => simp [hb]
  | false => simp [hb, h hb]

/-- Settles O31: the engine's cycle and the idle GTA leave `ph` to the end of the cycle, and an accepted START makes the
block busy. -/
theorem phKeepsTheLastBusyState : Obligations.PhKeepsTheLastBusyState := by
  intro s t h hrst
  obtain ⟨hr, -⟩ | ⟨-, -, v, op, u, hop, hu, rfl⟩ | ⟨-, -, v, rfl | ⟨f, rfl⟩⟩ := step_cases h
  · simp [hrst] at hr
  · exact endCycle_ph_of_kept fun _ => runOp_ph (s := driveData v s) hop hu
  · exact endCycle_ph_of_kept fun _ => by rw [gtaNoRequest_frame]; rfl
  · refine endCycle_ph_of_kept fun hb => ?_
    rw [gtaNoRequest_frame] at hb
    cases hb

end Sys2Proof.Machine
end

section
/-! PROOFS. What an engine's cycle makes of a state with the invariant: five outcomes, from which what the cycle keeps
is read off; O59. -/

namespace Sys2Proof.Machine

/-- The state after a cycle that ends with no delay running: what the ports carried, and the GTA at rest. -/
def gtaRest (q : ReqWord) (r : GtaRsp) (s : State) : State :=
  { s with gtaReq := q, gtaRsp := r, dcnt := 0, gop := .none }

/-- The pad once an operation has completed: only the reset pulse's two pad writes change it (R166, R168). -/
def padAfter (op : EngOp) (low : Bool) : Bool :=
  match op with
  | .setLow => true
  | .setHigh => false
  | .resetLow | .release | .wait _ | .transit | .sampleDelay | .sample | .validate => low

/-- An operation has completed, and the position has not moved yet: the pad is as the operation leaves it, the bit is b
(which only a bit's sample changes), and no wait is left (R160-R179). -/
def completed (op : EngOp) (q : ReqWord) (r : GtaRsp) (b : Bool) (s : State) : State :=
  { gtaRest q r s with padLow := padAfter op s.padLow, b := b, iter := 0, wph := false }

/-- What the cycle of an operation can make of the state: the operation goes on, in its delay or in its wait, or it
completes, commits the frame, or fails. A case says what it leaves, not when it is the one. -/
inductive OpOutcome (op : EngOp) (s : State) : State → Prop where
  | delayGoesOn (q : ReqWord) {g : GtaOp} {len d : Nat} (hop : delayOf op s = some (g, len)) (hd : d ≠ 0)
      (hlen : d < len) : OpOutcome op s { s with gtaReq := q, gtaRsp := .quiet, dcnt := d, gop := g }
  | waitGoesOn (q : ReqWord) (r : GtaRsp) {level : Bool} {i : BitVec 8} (w : Bool) (hop : op = .wait level)
      (hi : i.toNat < s.cfg.timeoutIters) : OpOutcome op s { gtaRest q r s with iter := i, wph := w }
  | completes (q : ReqWord) (r : GtaRsp) (b : Bool) (hop : op ≠ .validate) :
      OpOutcome op s (advance (completed op q r b s))
  | commits (q : ReqWord) (r : GtaRsp) (hop : op = .validate)
      (hchk : chk (frameByte s.sr 0) (frameByte s.sr 1) (frameByte s.sr 2) (frameByte s.sr 3) = frameByte s.sr 4) :
      OpOutcome op s { gtaRest q r s with
        data := ⟨frameByte s.sr 0, frameByte s.sr 1, frameByte s.sr 2, frameByte s.sr 3⟩
        result := .ok, st := .done }
  | fails (q : ReqWord) (r : GtaRsp) (f : Failure) (hop : lastOpFits f.result (some op)) :
      OpOutcome op s (failExchange f (gtaRest q r s))

/-! ### The GTA's part -/

/-- The invariant does not speak of the host's port. -/
theorem State.Inv.driveData {s : State} (h : s.Inv) (v : Byte) : (Machine.driveData v s).Inv := { h with }

/-- An operation that waits for no delay has none running. -/
theorem State.Inv.dcnt_of_noDelay {s : State} {op : EngOp} (h : s.Inv) (hop : s.op = some op)
    (hn : delayOf op s = none) : s.dcnt = 0 := by
  by_contra hd
  obtain ⟨-, op', len, hop', hdelay, -⟩ := h.gtaDelay hd
  simp_all

/-- Under the invariant no delay runs while the block is not busy (R36). -/
theorem State.Inv.dcnt_of_free {s : State} (h : s.Inv) (hb : s.busy = false) : s.dcnt = 0 := by
  by_contra hd
  simp [(h.gtaDelay hd).1] at hb

/-- With no delay running the GTA is at rest already. -/
theorem State.Inv.gtaRest_eq {s : State} (h : s.Inv) (hd : s.dcnt = 0) (q : ReqWord) (r : GtaRsp) :
    gtaRest q r s = { s with gtaReq := q, gtaRsp := r } := by
  rw [gtaRest, ← hd, ← h.gtaIdle hd]

theorem State.Inv.gtaNoRequest_eq {s : State} (h : s.Inv) (hd : s.dcnt = 0) :
    gtaNoRequest s = gtaRest 0 .quiet s := by
  rw [h.gtaRest_eq hd]
  simp [gtaNoRequest, hd, respond]

/-- The GTA's answer to a primitive leaves it at rest. -/
theorem State.Inv.respond_presentRequest {s : State} (h : s.Inv) (hd : s.dcnt = 0) (w : ReqWord) (r : GtaRsp) :
    respond r (presentRequest w s) = gtaRest w r s := by
  rw [h.gtaRest_eq hd]
  rfl

/-! ### Delays -/

/-- Every delay lasts at least a cycle, the parameters being in R7's ranges. -/
theorem State.Inv.delay_pos {s : State} {op : EngOp} {g : GtaOp} {len : Nat} (h : s.Inv)
    (hdelay : delayOf op s = some (g, len)) : 0 < len := by
  obtain ⟨hC, -, -, -, hpoll, hsample, hlow11, hlow22, hrel11, hrel22⟩ := h.params
  have pos {n : BitVec 16} (hn : n ≠ 0) : 0 < n.toNat := by bv_omega
  have us {n : BitVec 16} (hn : n ≠ 0) : 0 < s.cfg.usCycles n := Nat.mul_pos (pos hn) hC
  cases op with
  | resetLow =>
    cases hdelay
    have hn : s.cfg.resetLowMs s.fam ≠ 0 := by cases s.fam <;> assumption
    exact Nat.mul_pos (Nat.mul_pos (pos hn) (by decide)) hC
  | release =>
    cases hdelay
    have hn : s.cfg.releaseUs s.fam ≠ 0 := by cases s.fam <;> assumption
    exact us hn
  | sampleDelay => cases hdelay; exact us hsample
  | wait level =>
    simp only [delayOf] at hdelay
    split at hdelay <;> cases hdelay
    exact us hpoll
  | setLow | setHigh | sample | transit | validate => cases hdelay

/-- The primitive issued by an operation that waits for a delay starts that delay. -/
theorem exec_of_delay {op : EngOp} {s x u : State} {i : Instr} {g : GtaOp} {len : Nat}
    (hi : requestOf op s = some i) (hdelay : delayOf op s = some (g, len)) (hcfg : x.cfg = s.cfg)
    (h : exec i x = .next u) : u = startDelay g len x := by
  have us {n : BitVec 16} (h : exec (.delayUs n) x = .next u) : u = startDelay .delayUs (s.cfg.usCycles n) x := by
    simp only [exec, execDelayUs] at h
    split at h <;> cases h
    rw [hcfg]
  cases op with
  | resetLow =>
    cases hi; cases hdelay
    simp only [exec, execDelayMs] at h
    split at h <;> cases h
    rw [hcfg]
  | release | sampleDelay => cases hi; cases hdelay; exact us h
  | wait level =>
    simp only [delayOf] at hdelay
    split at hdelay
    · rename_i hw
      rw [requestOf, if_pos hw] at hi
      cases hi; cases hdelay; exact us h
    · cases hdelay
  | setLow | setHigh | sample | transit | validate => cases hdelay

/-! ### The outcomes -/

/-- Outside a wait its counter and phase are clear, so the completion writes neither. -/
theorem OpOutcome.completes_of_noWait {op : EngOp} {s : State} (h : s.Inv) (hop : s.op = some op)
    (hw : ∀ level, op ≠ .wait level) (hv : op ≠ .validate) (q : ReqWord) (r : GtaRsp) (b : Bool) :
    OpOutcome op s (advance { gtaRest q r s with padLow := padAfter op s.padLow, b := b }) := by
  obtain ⟨hiter, hwph⟩ := h.noWait (busy_of_op hop) (by simpa [hop] using hw)
  have := OpOutcome.completes (s := s) q r b hv
  rw [completed, ← hiter, ← hwph] at this
  exact this

/-- The end of a delay completes the operation, but for a wait's poll: that is the next iteration or Timeout. -/
theorem outcome_of_delayDone {op : EngOp} {s : State} {d : GtaOp × Nat} (h : s.Inv) (hop : s.op = some op)
    (hdelay : delayOf op s = some d) (q : ReqWord) : OpOutcome op s (engineReact op (gtaRest q .ok s)) := by
  cases op with
  | resetLow | release | sampleDelay => exact .completes_of_noWait h hop (by simp) (by simp) q .ok s.b
  | wait level =>
    have hw : s.wph = true := by
      by_contra hw
      simp [delayOf, hw] at hdelay
    have hreact : engineReact (.wait level) (gtaRest q .ok s) = endOfPoll (gtaRest q .ok s) := if_pos hw
    rw [hreact]
    obtain ⟨hlt, heq⟩ | ⟨-, heq⟩ := endOfPoll_cases (gtaRest q .ok s)
    · rw [heq]
      refine .waitGoesOn q .ok false rfl ?_
      obtain ⟨-, -, -, hN, -⟩ := h.params
      change s.iter.toNat + 1 < s.cfg.timeoutIters at hlt
      change (s.iter + 1).toNat < s.cfg.timeoutIters
      bv_omega
    · rw [heq]
      exact .fails q .ok .timeout ⟨_, rfl, rfl⟩
  | setLow | setHigh | sample | transit | validate => cases hdelay

/-- A later cycle of a delay: it ends, or goes on. -/
theorem outcome_of_running {op : EngOp} {s : State} (h : s.Inv) (hop : s.op = some op) (hd : s.dcnt ≠ 0) :
    OpOutcome op s (engineReact op (gtaNoRequest s)) := by
  obtain ⟨-, op', len, hop', hdelay, hlen⟩ := h.gtaDelay hd
  obtain rfl : op = op' := by simpa [hop] using hop'
  obtain ⟨h0, -⟩ | ⟨-, heq⟩ | ⟨h1, heq⟩ := gtaNoRequest_cases s
  · exact absurd h0 hd
  · rw [heq]
    exact outcome_of_delayDone h hop hdelay 0
  · rw [heq, engineReact_of_notDone rfl]
    exact .delayGoesOn 0 hdelay (by omega) (by omega)

/-- The issue cycle of a delay: a delay of one cycle ends in it, a longer one goes on. -/
theorem outcome_of_delayIssued {op : EngOp} {s u : State} {i : Instr} {g : GtaOp} {len : Nat} (h : s.Inv)
    (hop : s.op = some op) (hd : s.dcnt = 0) (hi : requestOf op s = some i)
    (hdelay : delayOf op s = some (g, len)) {w : ReqWord} (hu : exec i (presentRequest w s) = .next u) :
    OpOutcome op s (engineReact op u) := by
  have hpos := h.delay_pos hdelay
  rw [exec_of_delay (x := presentRequest w s) hi hdelay rfl hu]
  obtain ⟨-, heq⟩ | ⟨h1, heq⟩ := startDelay_cases g len (presentRequest w s)
  · rw [heq, h.respond_presentRequest hd]
    exact outcome_of_delayDone h hop hdelay w
  · rw [heq, engineReact_of_notDone rfl]
    exact .delayGoesOn w hdelay (by omega) (by omega)

/-- The issue cycle of a pad write: a fault fails the exchange, else the write completes. -/
theorem outcome_of_padWrite {op : EngOp} {s : State} {low : Bool} (h : s.Inv) (hop : s.op = some op)
    (hd : s.dcnt = 0) (w : ReqWord) (hpad : op = .setLow ∧ low = true ∨ op = .setHigh ∧ low = false) :
    OpOutcome op s (engineReact op (pinWrite low (presentRequest w s))) := by
  obtain ⟨-, heq⟩ | ⟨-, heq⟩ := pinWrite_cases low (presentRequest w s)
  · rw [heq, h.respond_presentRequest hd]
    have hfail := OpOutcome.fails (op := op) (s := s) w (.error s.draw.pinFaultCode) (.pinFault s.draw.pinFaultCode)
    obtain ⟨rfl, -⟩ | ⟨rfl, -⟩ := hpad <;> exact hfail ⟨_, rfl, rfl⟩
  · rw [heq, h.respond_presentRequest hd]
    have hdone := OpOutcome.completes_of_noWait (op := op) h hop
    obtain ⟨rfl, rfl⟩ | ⟨rfl, rfl⟩ := hpad <;> exact hdone (by simp) (by simp) w .ok s.b

/-- The issue cycle of a bit's sample. -/
theorem outcome_of_sample {s : State} (h : s.Inv) (hop : s.op = some .sample) (hd : s.dcnt = 0) (w : ReqWord) :
    OpOutcome .sample s (engineReact .sample (pinQuery true (presentRequest w s))) := by
  obtain ⟨-, heq⟩ | ⟨-, heq⟩ := pinQuery_cases true (presentRequest w s) <;>
    rw [heq, h.respond_presentRequest hd]
  · exact .fails w _ (.pinFault _) ⟨_, rfl, rfl⟩
  · exact .completes_of_noWait h hop (by simp) (by simp) w (.answer _) _

/-- The issue cycle of a wait's sample: a fault, a match, or the polling delay next. -/
theorem outcome_of_waitSample {s : State} {level : Bool} (h : s.Inv) (hop : s.op = some (.wait level))
    (hw : s.wph = false) (hd : s.dcnt = 0) (w : ReqWord) :
    OpOutcome (.wait level) s (engineReact (.wait level) (pinQuery level (presentRequest w s))) := by
  have react (r : GtaRsp) (hdone : r.done = true) :
      OpOutcome (.wait level) s (engineReact (.wait level) (gtaRest w r s)) := by
    have hreact : engineReact (.wait level) (gtaRest w r s) = afterSample (gtaRest w r s) := by
      simp [engineReact, gtaRest, hdone, hw]
    rw [hreact]
    obtain ⟨-, heq⟩ | ⟨-, -, heq⟩ | ⟨-, -, heq⟩ := afterSample_cases (gtaRest w r s) <;> rw [heq]
    · exact .fails w r (.pinFault r.code) ⟨_, rfl, rfl⟩
    · exact .completes w r s.b (by simp)
    · exact .waitGoesOn w r true rfl (h.iterBound (busy_of_op hop))
  obtain ⟨-, heq⟩ | ⟨-, heq⟩ := pinQuery_cases level (presentRequest w s) <;>
    rw [heq, h.respond_presentRequest hd] <;> exact react _ rfl

/-- The issue cycle of a pin primitive, operation by operation. -/
theorem outcome_of_pinIssued {op : EngOp} {s u : State} {i : Instr} (h : s.Inv) (hop : s.op = some op)
    (hd : s.dcnt = 0) (hi : requestOf op s = some i) (hdelay : delayOf op s = none) {w : ReqWord}
    (hu : exec i (presentRequest w s) = .next u) : OpOutcome op s (engineReact op u) := by
  cases op with
  | setLow => cases hi; cases hu; exact outcome_of_padWrite h hop hd w (.inl ⟨rfl, rfl⟩)
  | setHigh => cases hi; cases hu; exact outcome_of_padWrite h hop hd w (.inr ⟨rfl, rfl⟩)
  | sample => cases hi; cases hu; exact outcome_of_sample h hop hd w
  | wait level =>
    have hw : s.wph = false := by
      by_contra hw
      simp [delayOf, hw] at hdelay
    have hout := outcome_of_waitSample h hop hw hd w
    cases level <;> simp only [requestOf, hw, Bool.false_eq_true, if_false, if_true] at hi <;> cases hi <;>
      cases hu <;> exact hout
  | resetLow | release | sampleDelay => cases hdelay
  | transit | validate => cases hi

/-- Under the invariant, every cycle of an operation has one of the five outcomes. -/
theorem runOp_outcome {s t : State} {op : EngOp} (h : s.Inv) (hop : s.op = some op) (hr : runOp op s = .next t) :
    OpOutcome op s t := by
  obtain ⟨rfl, rfl⟩ | ⟨rfl, rfl⟩ | ⟨hd, -, -, rfl⟩ | ⟨hd, i, u, hi, hu, rfl⟩ := runOp_cases (busy_of_op hop) hop hr
  · rw [h.gtaNoRequest_eq (h.dcnt_of_noDelay hop rfl)]
    exact .completes_of_noWait h hop (by simp) (by simp) 0 .quiet s.b
  · rw [h.gtaNoRequest_eq (h.dcnt_of_noDelay hop rfl)]
    obtain ⟨hchk, heq⟩ | ⟨-, heq⟩ := validate_cases (gtaRest 0 .quiet s) <;> rw [heq]
    · exact .commits 0 .quiet rfl hchk
    · exact .fails 0 .quiet .checksumMismatch rfl
  · exact outcome_of_running h hop hd
  · cases hdelay : delayOf op s with
    | some d => exact outcome_of_delayIssued h hop hd hi hdelay hu
    | none => exact outcome_of_pinIssued h hop hd hi hdelay hu

/-! ### The primitive in execution -/

/-- In an issue cycle `gop` is the opcode of the primitive that is issued (R37, R93). -/
theorem gopInCycle_of_request {s : State} {op : EngOp} {i : Instr} (hop : s.op = some op) (hd : s.dcnt = 0)
    (hi : requestOf op s = some i) : s.gopInCycle = .ofCode (reqOp (requestWord i)) := by
  rw [gopInCycle_of_issue hd, request_of_op (busy_of_op hop) hd hop hi]

theorem ofCode_requestWord_delayUs (n : BitVec 16) : GtaOp.ofCode (reqOp (requestWord (.delayUs n))) = .delayUs :=
  congrArg GtaOp.ofCode (reqOp_reqWord 5 n)

theorem ofCode_requestWord_delayMs (n : BitVec 16) : GtaOp.ofCode (reqOp (requestWord (.delayMs n))) = .delayMs :=
  congrArg GtaOp.ofCode (reqOp_reqWord 6 n)

/-- Without a request and without a running delay nothing is in execution (R37). -/
theorem gopInCycle_of_noRequest {s : State} (hd : s.dcnt = 0) (hr : s.request = 0) : s.gopInCycle = .none := by
  rw [gopInCycle_of_issue hd, hr]
  rfl

/-- With the engine at rest there is no request (R186). -/
theorem request_of_free {s : State} (hb : s.busy = false) : s.request = 0 := by
  simp [State.request, hb]

/-- An operation's cycle that answers DONE leaves no primitive in execution, as every outcome but a delay that goes on
leaves the GTA at rest. -/
theorem OpOutcome.gop_of_done {op : EngOp} {s t : State} (ho : OpOutcome op s t) (hdone : t.gtaRsp.done = true) :
    t.gop = .none := by
  cases ho with
  | delayGoesOn q hdelay hd hlen => cases hdone
  | waitGoesOn q r w hw hi => rfl
  | completes q r b hv => rw [advance_frame]; rfl
  | commits q r hv hchk => rfl
  | fails q r f hf => rfl

/-- With no delay running, a cycle without a request answers nothing (R132). -/
theorem gtaNoRequest_notDone {s : State} (hd : s.dcnt = 0) : ¬ (gtaNoRequest s).gtaRsp.done = true := by
  simp [gtaNoRequest, hd, respond, GtaRsp.quiet]

/-- Settles O59: the issue cycle by the operation's request, a delay's later cycles by the invariant, and the edge after
DONE by the outcomes of an operation. -/
theorem gopNamesThePrimitiveInExecution : Obligations.GopNamesThePrimitiveInExecution := by
  refine ⟨fun s op hop hd => ?_, fun s h hd => ?_, fun s h hb => ?_, fun s t h hstep hdone => ?_⟩
  · cases op with
    | setLow | setHigh | sample => exact gopInCycle_of_request hop hd rfl
    | resetLow => exact (gopInCycle_of_request hop hd rfl).trans (ofCode_requestWord_delayMs _)
    | release | sampleDelay => exact (gopInCycle_of_request hop hd rfl).trans (ofCode_requestWord_delayUs _)
    | transit | validate => exact gopInCycle_of_noRequest hd (by simp [State.request, hop, requestOf])
    | wait level =>
      dsimp only
      split
      · rename_i hw
        exact (gopInCycle_of_request hop hd (if_pos hw)).trans (ofCode_requestWord_delayUs _)
      · rename_i hw
        cases level <;> exact gopInCycle_of_request hop hd (if_neg hw)
  · have hgop := gopInCycle_of_running hd
    obtain ⟨-, op, len, hop, hdelay, hlen⟩ := h.gtaDelay hd
    exact ⟨hgop, op, len, hop, hgop ▸ hdelay, hlen⟩
  · exact gopInCycle_of_noRequest (h.dcnt_of_free hb) (request_of_free hb)
  · obtain ⟨-, v, rfl⟩ | ⟨-, -, v, op, u, hop, hu, rfl⟩ | ⟨-, hb, v, rfl | ⟨f, rfl⟩⟩ := step_cases hstep
    · rfl
    · exact (runOp_outcome (h.driveData v) hop hu).gop_of_done hdone
    · exact absurd hdone (gtaNoRequest_notDone (s := driveData v s) (h.dcnt_of_free hb))
    · exact absurd hdone (gtaNoRequest_notDone (s := driveData v (acceptStart f s)) (h.dcnt_of_free hb))

end Sys2Proof.Machine
end

section
/-! PROOFS. The invariant after reset and across every step; O55 and O56. -/

namespace Sys2Proof.Machine

/-! ### Ports, inputs and reset -/

/-- The invariant does not speak of the inputs. -/
theorem State.Inv.consumeInputs {s : State} (h : s.Inv) : (Machine.consumeInputs s).Inv := { h with }

/-- Stopping the GTA keeps the invariant, whatever its ports show. -/
theorem State.Inv.gtaRest {s : State} (h : s.Inv) (q : ReqWord) (r : GtaRsp) : (Machine.gtaRest q r s).Inv :=
  { h with
    gtaIdle := fun _ => rfl
    gtaDelay := fun hd => absurd rfl hd }

/-- The invariant while nothing but the synchroniser and the parameters is set (R41). -/
theorem inv_resetWith {cfg : Config} {sync : List Bool} (hc : cfg.InRange) (hs : sync.length = cfg.syncStages) :
    (State.resetWith cfg sync).Inv where
  params := hc
  syncLength := hs
  position := fun hb => nomatch hb
  phase := fun hb => nomatch hb
  idle := fun _ => ⟨rfl, rfl⟩
  lastOp := fun he => nomatch he
  iterBound := fun hb => nomatch hb
  noWait := fun hb => nomatch hb
  gtaIdle := fun _ => rfl
  gtaDelay := fun hd => absurd rfl hd
  bits := rfl
  shiftRegister := Nat.one_pos
  dataHidden := fun _ => rfl
  dataOk := fun hd => nomatch hd
  outcome := ⟨fun _ => nofun, fun _ => rfl⟩
  pinError := fun _ => rfl
  padLow := fun hp => nomatch hp
  padHeld := fun hp => nomatch hp

/-- Settles O55: VC's parameters are in range, and the synchroniser of `State.reset` has VC's two stages. -/
theorem invAtReset : Obligations.InvAtReset :=
  inv_resetWith (by decide) (by decide)

/-- Settles O53: the reset state is written out field by field in `State.resetWith`. -/
theorem resetStateHasTheStatedValues : Obligations.ResetStateHasTheStatedValues :=
  ⟨rfl, rfl, rfl, rfl, rfl, rfl, rfl, rfl, rfl, rfl, rfl, rfl, rfl, rfl, rfl, rfl, rfl, rfl, rfl⟩

/-- A reset cycle puts the block in the reset state of its own parameters, with S free synchroniser stages. -/
theorem State.Inv.resetBlock {s : State} (h : s.Inv) : (Machine.resetBlock s).Inv :=
  { inv_resetWith h.params (by simp [freeSync] : (freeSync s).length = s.cfg.syncStages) with }

/-! ### The end of a cycle -/

theorem syncNext_length {s : State} (h : s.sync.length = s.cfg.syncStages) : s.syncNext.length = s.cfg.syncStages := by
  simp [State.syncNext, h]

/-- The end of a cycle gives the invariant if what the operations left has it once `ph` follows a busy `st`. -/
theorem State.Inv.endCycle {s u : State} (hs : s.Inv) (hcfg : u.cfg = s.cfg)
    (hu : State.Inv { u with ph := if u.busy then u.st else u.ph }) : (Machine.endCycle s u).Inv :=
  { hu with syncLength := (syncNext_length hs.syncLength).trans (congrArg Config.syncStages hcfg.symm) }

/-- Under the invariant `ph` follows a busy `st` already. -/
theorem State.Inv.phFollows {u : State} (hu : u.Inv) :
    State.Inv { u with ph := if u.busy then u.st else u.ph } := by
  have hph : (if u.busy then u.st else u.ph) = u.ph := by
    split
    · exact (hu.phase ‹_›).symm
    · rfl
  rw [hph]
  exact hu

/-! ### Between two operations -/

/-- An exchange in progress between two operations: no wait has begun, no delay runs, and no outcome is recorded. -/
structure State.Between (s : State) : Prop where
  params : s.cfg.InRange
  syncLength : s.sync.length = s.cfg.syncStages
  iter : s.iter = 0
  wph : s.wph = false
  dcnt : s.dcnt = 0
  gop : s.gop = .none
  result : s.result = .ok
  pinerr : s.pinerr = 0
  data : s.data = .zero

/-- A legal position with the bits and the pad it can have: R22's table, with R27 and R166-R168 beside it. -/
structure State.Placed (s : State) : Prop where
  legal : s.op ≠ none
  bits : bitsInPhase s.st s.bitcnt.toNat
  shiftRegister : s.sr.toNat < 2 ^ s.bitcnt.toNat
  padLow : s.padLow = true → s.st = .reset ∧ s.stepIx.toNat ≤ 2
  padHeld : s.st = .reset → s.stepIx.toNat = 1 ∨ s.stepIx.toNat = 2 → s.padLow = true

theorem State.Placed.busy {s : State} (h : s.Placed) : s.busy = true := by
  obtain ⟨op, hop⟩ := Option.ne_none_iff_exists'.mp h.legal
  exact busy_of_op hop

/-- A busy state is not one of the three others (R21). -/
theorem st_ne_of_busy {s : State} {e : EngSt} (hb : s.busy = true) (he : e.busy = false) : s.st ≠ e := by
  rintro rfl
  simp [State.busy, he] at hb

theorem not_ended_of_busy {s : State} (hb : s.busy = true) : ¬ s.ended = true := by
  unfold State.busy at hb
  unfold State.ended
  revert hb
  cases s.st <;> decide

/-- Between two operations, at a legal position, the invariant holds once `ph` follows `st`. -/
theorem State.Between.inv {s : State} (h : s.Between) (hp : s.Placed) : State.Inv { s with ph := s.st } where
  params := h.params
  syncLength := h.syncLength
  position := fun _ => hp.legal
  phase := fun _ => rfl
  idle := fun hi => absurd hi (st_ne_of_busy hp.busy rfl)
  lastOp := fun he => absurd he (not_ended_of_busy hp.busy)
  iterBound := fun _ => by
    obtain ⟨-, -, hN, -⟩ := h.params
    rw [h.iter]
    exact hN
  noWait := fun _ _ => ⟨h.iter, h.wph⟩
  gtaIdle := fun _ => h.gop
  gtaDelay := fun hd => absurd h.dcnt hd
  bits := hp.bits
  shiftRegister := hp.shiftRegister
  dataHidden := fun _ => h.data
  dataOk := fun hd => absurd hd (st_ne_of_busy hp.busy rfl)
  outcome := ⟨fun _ => st_ne_of_busy hp.busy rfl, fun _ => h.result⟩
  pinError := fun _ => h.pinerr
  padLow := hp.padLow
  padHeld := hp.padHeld

/-- An accepted START begins an exchange at (RESET, 0), with the pad as the last one left it (R241). -/
theorem State.Inv.acceptStart {s : State} (h : s.Inv) (hb : s.busy = false) (f : Family) :
    (Machine.acceptStart f s).Inv :=
  have hd := h.dcnt_of_free hb
  have between : (Machine.acceptStart f s).Between :=
    ⟨h.params, h.syncLength, rfl, rfl, hd, h.gtaIdle hd, rfl, rfl, rfl⟩
  between.inv ⟨nofun, rfl, Nat.one_pos, fun _ => ⟨rfl, Nat.zero_le 2⟩, fun _ => by simp⟩

/-! ### A completed operation -/

/-- Bits received before stay below the new one in the shift register (R180). -/
theorem shiftIn_lt {sr : BitVec 40} {n : Nat} (b : Bool) (h : sr.toNat < 2 ^ n) :
    (shiftIn sr b).toNat < 2 ^ (n + 1) := by
  have hb : (BitVec.ofBool b).toNat < 2 ^ 1 := (BitVec.ofBool b).isLt
  have hlow : sr.toNat % 2 ^ 39 ≤ sr.toNat := Nat.mod_le _ _
  rw [shiftIn, BitVec.toNat_append, ← Nat.shiftLeft_add_eq_or_of_lt hb, BitVec.extractLsb'_toNat, Nat.shiftRight_zero,
    Nat.shiftLeft_eq]
  omega

/-- When an operation has completed, the pad is low exactly within the reset pulse (R166-R168). -/
theorem State.Inv.padAfter_iff {s : State} {op : EngOp} (h : s.Inv) (hop : s.op = some op) :
    padAfter op s.padLow = true ↔ s.st = .reset ∧ s.stepIx.toNat < 2 := by
  have hph := h.phase (busy_of_op hop)
  have hlow := h.padLow
  have hheld := h.padHeld
  rw [hph] at hlow hheld
  rcases opAt_cases hop with h | h | h | h | h | h | h | h | h | h | h | h | h | h <;>
    obtain ⟨hst, hix, rfl⟩ := h <;> simp_all [padAfter]

/-- Step 0 of a state after RESET, with the pad released. -/
theorem placed_enter {s : State} {e : EngSt} (hlegal : opAt e 0 ≠ none) (he : e ≠ .reset)
    (hbits : bitsInPhase e s.bitcnt.toNat) (hsr : s.sr.toNat < 2 ^ s.bitcnt.toNat) (hpad : ¬ s.padLow = true) :
    (enter e s).Placed :=
  ⟨hlegal, hbits, hsr, fun hp => absurd hp hpad, fun h => absurd h he⟩

/-- The next bit, or VALIDATE once there are forty (R179, R182). -/
theorem placed_commitBit {s : State} (hbits : s.bitcnt.toNat < 40) (hsr : s.sr.toNat < 2 ^ s.bitcnt.toNat)
    (hpad : ¬ s.padLow = true) : (commitBit s).Placed := by
  have hcount : (s.bitcnt + 1).toNat = s.bitcnt.toNat + 1 := by bv_omega
  have hshift : (shiftIn s.sr s.b).toNat < 2 ^ (s.bitcnt + 1).toNat := by
    rw [hcount]
    exact shiftIn_lt s.b hsr
  obtain ⟨h40, heq⟩ | ⟨h40, heq⟩ := commitBit_cases s <;> rw [heq]
  · exact placed_enter (s := { s with sr := shiftIn s.sr s.b, bitcnt := s.bitcnt + 1 }) (by decide) nofun
      (hcount.trans h40) hshift hpad
  · have hlt : (s.bitcnt + 1).toNat < 40 := by omega
    exact placed_enter (s := { s with sr := shiftIn s.sr s.b, bitcnt := s.bitcnt + 1 }) (by decide) nofun hlt hshift
      hpad

/-- Before the last step of RESET, ACKWAIT1 and BITLOOP the next step is legal too (R22). -/
theorem opAt_next {e : EngSt} {ix : BitVec 3}
    (h : (e = .reset ∧ ix.toNat < 4) ∨ (e = .ackWait1 ∧ ix.toNat < 2) ∨ (e = .bitLoop ∧ ix.toNat < 3)) :
    opAt e (ix + 1) ≠ none := by
  obtain ⟨rfl, hix⟩ | ⟨rfl, hix⟩ | ⟨rfl, hix⟩ := h <;> revert ix <;> decide

/-- The next step of the same state. -/
theorem placed_nextStep {s : State} (hlegal : opAt s.st (s.stepIx + 1) ≠ none) (hix : s.stepIx.toNat < 4)
    (hbits : bitsInPhase s.st s.bitcnt.toNat) (hsr : s.sr.toNat < 2 ^ s.bitcnt.toNat)
    (hpad : s.padLow = true ↔ s.st = .reset ∧ s.stepIx.toNat < 2) : (nextStep s).Placed := by
  have hnext : (s.stepIx + 1).toNat = s.stepIx.toNat + 1 := by bv_omega
  refine ⟨hlegal, hbits, hsr, fun hp => ?_, fun hst hsteps => ?_⟩
  · obtain ⟨hst, hlt⟩ := hpad.mp hp
    exact ⟨hst, hnext.trans_le hlt⟩
  · rw [nextStep_stepIx, hnext] at hsteps
    exact hpad.mpr ⟨hst, by omega⟩

/-- R160's rows of success lead from a legal position to a legal position. -/
theorem placed_advance {s : State} {op : EngOp} (hop : s.op = some op) (hv : op ≠ .validate)
    (hbits : bitsInPhase s.st s.bitcnt.toNat) (hsr : s.sr.toNat < 2 ^ s.bitcnt.toNat)
    (hpad : s.padLow = true ↔ s.st = .reset ∧ s.stepIx.toNat < 2) : (advance s).Placed := by
  obtain ⟨hst, hix, -, heq⟩ | ⟨hst, -, -, heq⟩ | ⟨hst, -, -, heq⟩ | ⟨hst, -, -, heq⟩ | ⟨hpos, heq⟩ :=
    advance_cases hop hv <;> rw [heq]
  · rw [hst] at hbits
    exact placed_enter (by decide) nofun hbits hsr (by simp [hpad, hix])
  · rw [hst] at hbits
    exact placed_enter (by decide) nofun hbits hsr (by simp [hpad, hst])
  · rw [hst] at hbits
    have h40 : s.bitcnt.toNat < 40 := by
      change s.bitcnt.toNat = 0 at hbits
      omega
    exact placed_enter (by decide) nofun h40 hsr (by simp [hpad, hst])
  · rw [hst] at hbits
    exact placed_commitBit hbits hsr (by simp [hpad, hst])
  · exact placed_nextStep (opAt_next hpos) (by omega) hbits hsr hpad

/-! ### What each outcome keeps -/

/-- While an exchange runs nothing of its outcome is recorded (R31-R33). -/
theorem State.Inv.noOutcome {s : State} {op : EngOp} (h : s.Inv) (hop : s.op = some op) :
    s.ph = s.st ∧ s.result = .ok ∧ s.pinerr = 0 ∧ s.data = .zero := by
  have hb := busy_of_op hop
  have hok : s.result = .ok := h.outcome.mpr (st_ne_of_busy hb rfl)
  exact ⟨h.phase hb, hok, h.pinError (by simp [hok]), h.dataHidden (st_ne_of_busy hb rfl)⟩

/-- Failure entry keeps the invariant where the failure is one the operation can have (R271, R276). -/
theorem State.Inv.failExchange {s : State} {op : EngOp} {f : Failure} (h : s.Inv) (hop : s.op = some op)
    (hd : s.dcnt = 0) (hf : lastOpFits f.result (some op)) : (Machine.failExchange f s).Inv := by
  obtain ⟨hph, -, hpinerr, hdata⟩ := h.noOutcome hop
  have hop : opAt s.ph s.stepIx = some op := hph ▸ hop
  exact { h with
    position := nofun
    phase := nofun
    idle := nofun
    lastOp := fun _ => hop ▸ hf
    iterBound := nofun
    noWait := nofun
    gtaDelay := fun hd' => absurd hd hd'
    dataHidden := fun _ => hdata
    dataOk := nofun
    outcome := by cases f <;> simp [Machine.failExchange, Failure.result]
    pinError := fun hr => by
      cases f with
      | pinFault code => exact absurd rfl hr
      | timeout | checksumMismatch => exact hpinerr }

/-- A commit of VALIDATE keeps the invariant: DATA appears together with OK (R221). -/
theorem State.Inv.commitFrame {s : State} (h : s.Inv) (hop : s.op = some .validate) (hd : s.dcnt = 0)
    (hchk : chk (frameByte s.sr 0) (frameByte s.sr 1) (frameByte s.sr 2) (frameByte s.sr 3) = frameByte s.sr 4) :
    State.Inv { s with
      data := ⟨frameByte s.sr 0, frameByte s.sr 1, frameByte s.sr 2, frameByte s.sr 3⟩, result := .ok
      st := .done } := by
  obtain ⟨hph, -, hpinerr, -⟩ := h.noOutcome hop
  have hop : opAt s.ph s.stepIx = some .validate := hph ▸ hop
  exact { h with
    position := nofun
    phase := nofun
    idle := nofun
    lastOp := fun _ => hop
    iterBound := nofun
    noWait := nofun
    gtaDelay := fun hd' => absurd hd hd'
    dataHidden := fun hne => absurd rfl hne
    dataOk := fun _ => ⟨rfl, hchk⟩
    outcome := ⟨fun _ => nofun, fun _ => rfl⟩
    pinError := fun _ => hpinerr }

/-- A wait that goes on, its counter below the budget, keeps the invariant (R25, R26). -/
theorem State.Inv.waitGoesOn {s : State} {level : Bool} {i : BitVec 8} (h : s.Inv) (hop : s.op = some (.wait level))
    (hd : s.dcnt = 0) (hi : i.toNat < s.cfg.timeoutIters) (w : Bool) : State.Inv { s with iter := i, wph := w } :=
  { h with
    iterBound := fun _ => hi
    noWait := fun _ hw => absurd hop (hw level)
    gtaDelay := fun hd' => absurd hd hd' }

/-- A delay that goes on keeps the invariant: it is the one the operation waits for (R36, R37). -/
theorem State.Inv.delayGoesOn {s : State} {op : EngOp} {g : GtaOp} {len d : Nat} (h : s.Inv) (hop : s.op = some op)
    (hdelay : delayOf op s = some (g, len)) (hd : d ≠ 0) (hlen : d < len) (q : ReqWord) (r : GtaRsp) :
    State.Inv { s with gtaReq := q, gtaRsp := r, dcnt := d, gop := g } :=
  { h with
    gtaIdle := fun h0 => absurd h0 hd
    gtaDelay := fun _ => ⟨busy_of_op hop, op, len, hop, hdelay, hlen⟩ }

/-- Moving to the next position begins no wait and no delay, and records no outcome. -/
theorem State.Between.advance {s : State} (h : s.Between) : (Machine.advance s).Between := by
  rw [advance_frame]
  exact { h with }

/-- An operation that completes leaves the exchange between two operations. -/
theorem State.Inv.between_completed {s : State} {op : EngOp} (h : s.Inv) (hop : s.op = some op) (q : ReqWord)
    (r : GtaRsp) (b : Bool) : (completed op q r b s).Between := by
  obtain ⟨-, hok, hpinerr, hdata⟩ := h.noOutcome hop
  exact ⟨h.params, h.syncLength, rfl, rfl, rfl, rfl, hok, hpinerr, hdata⟩

/-- An operation that completes moves the exchange to a legal position. -/
theorem State.Inv.placed_advance_completed {s : State} {op : EngOp} (h : s.Inv) (hop : s.op = some op)
    (hv : op ≠ .validate) (q : ReqWord) (r : GtaRsp) (b : Bool) : (Machine.advance (completed op q r b s)).Placed := by
  obtain ⟨hph, -, -, -⟩ := h.noOutcome hop
  exact placed_advance (s := completed op q r b s) hop hv (hph ▸ h.bits) h.shiftRegister (h.padAfter_iff hop)

/-- Every outcome of an operation leaves the invariant, once `ph` follows a busy `st`. -/
theorem OpOutcome.inv {op : EngOp} {s t : State} (h : s.Inv) (hop : s.op = some op) (ho : OpOutcome op s t) :
    State.Inv { t with ph := if t.busy then t.st else t.ph } := by
  cases ho with
  | delayGoesOn q hdelay hd hlen => exact (h.delayGoesOn hop hdelay hd hlen q .quiet).phFollows
  | waitGoesOn q r w hw hi => exact ((h.gtaRest q r).waitGoesOn (hw ▸ hop) rfl hi w).phFollows
  | completes q r b hv =>
    have hplaced := h.placed_advance_completed hop hv q r b
    rw [if_pos hplaced.busy]
    exact (h.between_completed hop q r b).advance.inv hplaced
  | commits q r hv hchk => exact ((h.gtaRest q r).commitFrame (hv ▸ hop) rfl hchk).phFollows
  | fails q r f hf => exact ((h.gtaRest q r).failExchange hop rfl hf).phFollows

/-- A block in which no delay runs keeps the invariant in a cycle without a request (R132). -/
theorem State.Inv.gtaNoRequest {s : State} (h : s.Inv) (hd : s.dcnt = 0) : (Machine.gtaNoRequest s).Inv := by
  rw [h.gtaNoRequest_eq hd]
  exact h.gtaRest 0 .quiet

theorem gtaNoRequest_cfg (s : State) : (gtaNoRequest s).cfg = s.cfg := by
  rw [gtaNoRequest_frame]

/-- Settles O56: a reset cycle gives a reset state, a busy cycle one of its operation's outcomes, and any other cycle an
idle GTA beside what the host left. -/
theorem stepKeepsInv : Obligations.StepKeepsInv := by
  intro s t h hstep
  obtain ⟨-, v, rfl⟩ | ⟨-, -, v, op, u, hop, hu, rfl⟩ | ⟨-, hb, v, rfl | ⟨f, rfl⟩⟩ := step_cases hstep
  · exact (h.resetBlock.driveData v).consumeInputs
  · have hv := h.driveData v
    exact h.endCycle (runOp_cfg (s := driveData v s) hop hu) ((runOp_outcome hv hop hu).inv hv hop)
  · have hu := (h.driveData v).gtaNoRequest (h.dcnt_of_free hb)
    exact h.endCycle (gtaNoRequest_cfg _) hu.phFollows
  · have hu := ((h.acceptStart hb f).driveData v).gtaNoRequest (h.dcnt_of_free hb)
    exact h.endCycle (gtaNoRequest_cfg _) hu.phFollows

end Sys2Proof.Machine
end

section
/-! PROOFS. What the host's port makes of a word by its W and A fields: each row of the opcode map stands at one
direction and address, a read puts its register on the bus, a write leaves the bus at 0x00. -/

namespace Sys2Proof

/-! ### The fields of a host word -/

theorem busWe_busWord (we : Bool) (a : BitVec 4) (d : Byte) : busWe (busWord we a d) = we :=
  calc busWe (busWord we a d) = (BitVec.ofBool we ++ a).getLsbD 4 := BitVec.getLsbD_append
    _ = (BitVec.ofBool we).getLsbD 0 := BitVec.getLsbD_append
    _ = we := by simp

theorem busAddr_busWord (we : Bool) (a : BitVec 4) (d : Byte) : busAddr (busWord we a d) = a := by
  rw [busAddr, busWord, BitVec.extractLsb'_append_eq_of_le (by decide), BitVec.extractLsb'_append_eq_right]

/-- The bits of 0x1F00 are the fields W and A (R91). -/
theorem busWe_and_mask (w : BusWord) : busWe (w &&& 0x1F00) = busWe w := by
  simp [busWe]

theorem busAddr_and_mask (w : BusWord) : busAddr (w &&& 0x1F00) = busAddr w := by
  have hmask : BitVec.extractLsb' 8 4 (0x1F00 : BusWord) = BitVec.allOnes 4 := by decide
  rw [busAddr, BitVec.extractLsb'_and, hmask, BitVec.and_allOnes, busAddr]

/-! ### Where the rows stand -/

/-- Every row fixes W and A, so a word has those of the row it matches (R96). -/
theorem fields_of_accepts {r : HostRow} (hr : r ∈ hostRows) {w : BusWord} (h : r.accepts w = true) :
    busWe w = busWe r.pat ∧ busAddr w = busAddr r.pat := by
  have hfixed : ∀ r ∈ hostRows, r.mask &&& 0x1F00 = 0x1F00 := by decide
  have hbits : w &&& 0x1F00 = r.pat &&& 0x1F00 := by
    rw [← beq_iff_eq.mp h, BitVec.and_assoc, hfixed r hr]
  rw [← busWe_and_mask w, ← busAddr_and_mask w, hbits, busWe_and_mask, busAddr_and_mask]
  exact ⟨rfl, rfl⟩

/-- No row has this direction and address: the map of R96 writes CMD and reads 0x1-0x9 only. -/
abbrev NoRowAt (we : Bool) (a : BitVec 4) : Prop := if we then a ≠ 0 else a = 0 ∨ 0xA ≤ a.toNat

theorem decodeHostBus_of_noRowAt {w : BusWord} (h : NoRowAt (busWe w) (busAddr w)) :
    decodeHostBus w = reservedHostClass w := by
  have hmap : ∀ r ∈ hostRows, ¬ NoRowAt (busWe r.pat) (busAddr r.pat) := by decide
  have hnone : hostRows.find? (fun r => r.accepts w) = none := by
    refine List.find?_eq_none.mpr fun r hr hacc => hmap r hr ?_
    obtain ⟨hwe, haddr⟩ := fields_of_accepts hr hacc
    rwa [← hwe, ← haddr]
  rw [decodeHostBus, hnone]

theorem decodeHostBus_eq_reservedAddress {w : BusWord} (h : 0xA ≤ (busAddr w).toNat) :
    decodeHostBus w = .reservedAddress := by
  have hno : NoRowAt (busWe w) (busAddr w) := by
    unfold NoRowAt
    split
    · exact fun h0 => by simp [h0] at h
    · exact .inr h
  rw [decodeHostBus_of_noRowAt hno, reservedHostClass, if_pos h]

theorem decodeHostBus_eq_readOnlyWrite {w : BusWord} (hw : busWe w = true) (h0 : busAddr w ≠ 0)
    (h9 : (busAddr w).toNat ≤ 9) : decodeHostBus w = .readOnlyWrite := by
  have hno : NoRowAt (busWe w) (busAddr w) := by rwa [NoRowAt, if_pos hw]
  rw [decodeHostBus_of_noRowAt hno, reservedHostClass, if_neg (by omega), if_pos hw, if_neg h0]

theorem decodeHostBus_eq_readCmd {w : BusWord} (hw : busWe w = false) (h0 : busAddr w = 0) :
    decodeHostBus w = .readCmd := by
  have hno : NoRowAt (busWe w) (busAddr w) := by simp [NoRowAt, hw, h0]
  rw [decodeHostBus_of_noRowAt hno, reservedHostClass]
  simp [hw, h0]

/-- What a host word can be: a row's access, a reserved address, a read of CMD, or a write without an effect (R98). -/
theorem decodeHostBus_cases (w : BusWord) :
    (∃ r ∈ hostRows, r.accepts w = true ∧ decodeHostBus w = .instr (r.build w)) ∨
    decodeHostBus w = .reservedAddress ∨ (busWe w = false ∧ decodeHostBus w = .readCmd) ∨
    (busWe w = true ∧ (decodeHostBus w = .reservedCommand ∨ decodeHostBus w = .readOnlyWrite)) := by
  cases hf : hostRows.find? (fun r => r.accepts w) with
  | some r =>
    refine .inl ⟨r, List.mem_of_find?_eq_some hf, ?_, ?_⟩
    · simpa using List.find?_some hf
    · rw [decodeHostBus, hf]
  | none =>
    have hd : decodeHostBus w = reservedHostClass w := by rw [decodeHostBus, hf]
    rw [hd, reservedHostClass]
    split
    · exact .inr (.inl rfl)
    · cases busWe w with
      | false => exact .inr (.inr (.inl ⟨rfl, rfl⟩))
      | true =>
        refine .inr (.inr (.inr ⟨rfl, ?_⟩))
        by_cases h0 : busAddr w = 0
        · exact .inl (if_pos h0)
        · exact .inr (if_neg h0)

namespace Machine

/-! ### The port -/

/-- An access of a row: a write drives 0x00, a read drives the register of its address (R62). -/
theorem exec_of_hostRow {r : HostRow} (hr : r ∈ hostRows) (w : BusWord) (s : State) :
    (busWe r.pat = true ∧ ∃ u, exec (r.build w) s = .next (driveData 0 u)) ∨
    (busWe r.pat = false ∧ exec (r.build w) s = .next (driveData (memRead (busAddr r.pat) s) s)) := by
  simp only [hostRows, List.mem_cons, List.not_mem_nil, or_false] at hr
  obtain (rfl | rfl | rfl) | hr : (_ ∨ _ ∨ _) ∨ _ := by simpa only [or_assoc] using hr
  · exact .inl ⟨rfl, _, rfl⟩
  · exact .inl ⟨rfl, _, rfl⟩
  · exact .inl ⟨rfl, _, rfl⟩
  · rcases hr with rfl | rfl | rfl | rfl | rfl | rfl | rfl | rfl | rfl <;> exact .inr ⟨rfl, rfl⟩

/-- A read of a register that is not reserved drives the register's value and changes nothing else (R62). -/
theorem hostPort_of_read {s : State} {w : BusWord} (ha : s.hostIn.access = some w) (hw : busWe w = false)
    (hd : decodeHostBus w ≠ .reservedAddress) : hostPort s = .next (driveData (memRead (busAddr w) s) s) := by
  obtain ⟨r, hr, hacc, hi⟩ | h | ⟨-, h⟩ | ⟨hwe, -⟩ := decodeHostBus_cases w
  · obtain ⟨hwe, haddr⟩ := fields_of_accepts hr hacc
    rw [hostPort_of_instr ha hi, haddr]
    obtain ⟨hwrite, -⟩ | ⟨-, hread⟩ := exec_of_hostRow hr w s
    · simp [hwe, hwrite] at hw
    · exact hread
  · exact absurd h hd
  · simp only [hostPort, ha, h]
  · simp [hw] at hwe

/-- A write of a read-only register leaves the port as it is without an access (R73). -/
theorem hostPort_of_readOnlyWrite {s : State} {w : BusWord} (ha : s.hostIn.access = some w)
    (hd : decodeHostBus w = .readOnlyWrite) : hostPort s = .next (driveData 0 s) := by
  simp only [hostPort, ha, hd, memWrite_of_ne_zero _ _ (busAddr_of_readOnlyWrite hd)]

theorem hostPort_of_reservedAddress {s : State} {w : BusWord} (ha : s.hostIn.access = some w)
    (hd : decodeHostBus w = .reservedAddress) : hostPort s = .refused (.reservedAddress w) := by
  simp only [hostPort, ha, hd]

/-- Without a read the port drives 0x00 (R62). -/
theorem hostPort_busRdata_of_noRead {s t : State} (h : hostPort s = .next t)
    (hw : ∀ w, s.hostIn.access = some w → busWe w = true) : t.busRdata = 0 := by
  cases ha : s.hostIn.access with
  | none =>
    simp only [hostPort, ha] at h
    cases h
    rfl
  | some w =>
    have hwe := hw w ha
    obtain ⟨r, hr, hacc, hi⟩ | hd | ⟨hread, -⟩ | ⟨-, hd | hd⟩ := decodeHostBus_cases w
    · rw [hostPort_of_instr ha hi] at h
      obtain ⟨-, u, hu⟩ | ⟨hread, -⟩ := exec_of_hostRow hr w s
      · cases hu.symm.trans h
        rfl
      · rw [(fields_of_accepts hr hacc).1, hread] at hwe
        cases hwe
    · simp only [hostPort, ha, hd] at h
      cases h
    · rw [hread] at hwe
      cases hwe
    · simp only [hostPort, ha, hd] at h
      cases h
    · rw [hostPort_of_readOnlyWrite ha hd] at h
      cases h
      rfl

end Machine
end Sys2Proof
end

section
/-! PROOFS. The engine and the GTA neither read nor write the host's side of the state, `bus_rdata` and the host's
inputs, so a cycle in which the host's port only drives the bus is the cycle without an access; O14. -/

namespace Sys2Proof.Machine

/-- The state with another host beside it: what stands on `bus_rdata`, and what the host presents. -/
def withHostSide (v : Byte) (q : List HostIn) (s : State) : State := { s with busRdata := v, hostQ := q }

/-- The same of an outcome. -/
def mapHostSide (v : Byte) (q : List HostIn) (o : Res) : Res := andThen o fun t => .next (withHostSide v q t)

section
variable (v : Byte) (q : List HostIn)

@[simp] theorem withHostSide_st (s : State) : (withHostSide v q s).st = s.st := rfl
@[simp] theorem withHostSide_stepIx (s : State) : (withHostSide v q s).stepIx = s.stepIx := rfl
@[simp] theorem withHostSide_busy (s : State) : (withHostSide v q s).busy = s.busy := rfl
@[simp] theorem withHostSide_op (s : State) : (withHostSide v q s).op = s.op := rfl
@[simp] theorem withHostSide_dcnt (s : State) : (withHostSide v q s).dcnt = s.dcnt := rfl
@[simp] theorem withHostSide_request (s : State) : (withHostSide v q s).request = s.request := rfl

variable {v q}

/-- A test that does not look at the host's side may be made before or after setting it. -/
theorem ite_withHostSide {p : Prop} [Decidable p] {s t s' t' : State} (hs : s' = withHostSide v q s)
    (ht : t' = withHostSide v q t) : (if p then s' else t') = withHostSide v q (if p then s else t) := by
  split <;> assumption

variable (v q)

/-! ### The GTA -/

theorem pinWrite_withHostSide (low : Bool) (s : State) :
    pinWrite low (withHostSide v q s) = withHostSide v q (pinWrite low s) :=
  ite_withHostSide rfl rfl

theorem pinQuery_withHostSide (level : Bool) (s : State) :
    pinQuery level (withHostSide v q s) = withHostSide v q (pinQuery level s) :=
  ite_withHostSide rfl rfl

theorem startDelay_withHostSide (op : GtaOp) (len : Nat) (s : State) :
    startDelay op len (withHostSide v q s) = withHostSide v q (startDelay op len s) :=
  ite_withHostSide rfl rfl

theorem tickDelay_withHostSide (s : State) :
    tickDelay (withHostSide v q s) = withHostSide v q (tickDelay s) :=
  ite_withHostSide rfl rfl

theorem gtaNoRequest_withHostSide (s : State) :
    gtaNoRequest (withHostSide v q s) = withHostSide v q (gtaNoRequest s) :=
  ite_withHostSide rfl (tickDelay_withHostSide v q s)

/-- A primitive's issue cycle. -/
theorem exec_withHostSide {i : Instr} (hi : i.isPrimitive = true) (s : State) :
    exec i (withHostSide v q s) = mapHostSide v q (exec i s) := by
  cases i with
  | setLow => exact congrArg Host.Outcome.next (pinWrite_withHostSide v q true s)
  | setHigh => exact congrArg Host.Outcome.next (pinWrite_withHostSide v q false s)
  | isLow => exact congrArg Host.Outcome.next (pinQuery_withHostSide v q false s)
  | isHigh => exact congrArg Host.Outcome.next (pinQuery_withHostSide v q true s)
  | delayUs n =>
    simp only [exec, execDelayUs]
    split
    · rfl
    · exact congrArg Host.Outcome.next (startDelay_withHostSide v q .delayUs _ s)
  | delayMs n =>
    simp only [exec, execDelayMs]
    split
    · rfl
    · exact congrArg Host.Outcome.next (startDelay_withHostSide v q .delayMs _ s)
  | nop _ | readDht11 | readDht22 | rdStatus _ | rdData0 _ | rdData1 _ | rdData2 _ | rdData3 _ | rdPinerr _
  | rdState _ | rdPos _ | rdBitcnt _ => cases hi

theorem issue_withHostSide (w : ReqWord) (s : State) :
    issue w (withHostSide v q s) = mapHostSide v q (issue w s) := by
  unfold issue
  split
  · rename_i i hi
    exact exec_withHostSide v q (decodeGtaReq_primitive hi) (presentRequest w s)
  · exact congrArg Host.Outcome.next (gtaNoRequest_withHostSide v q s)
  · rfl

/-! ### The engine -/

theorem commitBit_withHostSide (s : State) :
    commitBit (withHostSide v q s) = withHostSide v q (commitBit s) :=
  ite_withHostSide rfl rfl

theorem advance_withHostSide (s : State) :
    advance (withHostSide v q s) = withHostSide v q (advance s) := by
  simp only [advance, withHostSide_st, withHostSide_stepIx]
  split
  case h_4 => exact commitBit_withHostSide v q s
  all_goals rfl

theorem validate_withHostSide (s : State) :
    validate (withHostSide v q s) = withHostSide v q (validate s) :=
  ite_withHostSide rfl rfl

theorem endOfPoll_withHostSide (s : State) :
    endOfPoll (withHostSide v q s) = withHostSide v q (endOfPoll s) :=
  ite_withHostSide rfl rfl

theorem afterSample_withHostSide (s : State) :
    afterSample (withHostSide v q s) = withHostSide v q (afterSample s) :=
  ite_withHostSide rfl (ite_withHostSide (advance_withHostSide v q { s with iter := 0, wph := false }) rfl)

theorem engineReact_withHostSide (op : EngOp) (s : State) :
    engineReact op (withHostSide v q s) = withHostSide v q (engineReact op s) := by
  cases op with
  | setLow | setHigh => exact ite_withHostSide rfl (ite_withHostSide rfl (advance_withHostSide v q s))
  | sample =>
    exact ite_withHostSide rfl (ite_withHostSide rfl (advance_withHostSide v q { s with b := s.gtaRsp.val }))
  | wait level =>
    exact ite_withHostSide rfl (ite_withHostSide (endOfPoll_withHostSide v q s) (afterSample_withHostSide v q s))
  | resetLow | release | sampleDelay => exact ite_withHostSide rfl (advance_withHostSide v q s)
  | transit | validate => exact ite_withHostSide rfl rfl

/-- An operation that reacts to what the GTA answers. -/
theorem andThen_react_withHostSide (op : EngOp) (o : Res) :
    (andThen (mapHostSide v q o) fun t => .next (engineReact op t)) =
      mapHostSide v q (andThen o fun t => .next (engineReact op t)) := by
  cases o with
  | next t => exact congrArg Host.Outcome.next (engineReact_withHostSide v q op t)
  | fault _ | refused _ => rfl

theorem runOp_withHostSide (op : EngOp) (s : State) :
    runOp op (withHostSide v q s) = mapHostSide v q (runOp op s) := by
  by_cases ht : op = .transit
  · subst ht
    simp only [runOp, gtaNoRequest_withHostSide, advance_withHostSide]
    rfl
  by_cases hv : op = .validate
  · subst hv
    simp only [runOp, gtaNoRequest_withHostSide, validate_withHostSide]
    rfl
  rw [runOp_gta _ ht hv, runOp_gta _ ht hv, withHostSide_dcnt, withHostSide_request, issue_withHostSide,
    andThen_react_withHostSide, gtaNoRequest_withHostSide, engineReact_withHostSide]
  split <;> rfl

/-- The engine's cycle beside another host, on both halves of R165. -/
theorem engineAfterHost_withHostSide (s0 s : State) :
    engineAfterHost s0 (withHostSide v q s) = mapHostSide v q (engineAfterHost s0 s) := by
  unfold engineAfterHost engineCycle
  simp only [withHostSide_busy, withHostSide_op, gtaNoRequest_withHostSide, runOp_withHostSide]
  split
  · split
    · split <;> rfl
    · rfl
  · rfl

end

/-! ### The cycle -/

/-- A cycle whose host access only drives the bus: the engine has the cycle it has without one. -/
theorem step_of_driveData {s : State} {w : Option BusWord} {q : List HostIn} {v : Byte}
    (h : hostPort { s with hostQ := ⟨false, w⟩ :: q } = .next (driveData v { s with hostQ := ⟨false, w⟩ :: q })) :
    step { s with hostQ := ⟨false, w⟩ :: q } =
      andThen (engineAfterHost s s) fun t => .next { endCycle s t with busRdata := v, hostQ := q } := by
  have hengine : engineAfterHost { s with hostQ := ⟨false, w⟩ :: q }
      (driveData v { s with hostQ := ⟨false, w⟩ :: q }) = mapHostSide v (⟨false, w⟩ :: q) (engineAfterHost s s) :=
    engineAfterHost_withHostSide v (⟨false, w⟩ :: q) s s
  rw [step_of_rst_low rfl, h]
  simp only [andThen_next]
  rw [hengine]
  cases engineAfterHost s s with
  | next t => rfl
  | fault _ | refused _ => rfl

/-- The cycle without an access. -/
theorem step_of_noAccess (s : State) (q : List HostIn) : step { s with hostQ := ⟨false, none⟩ :: q } =
    andThen (engineAfterHost s s) fun t => .next { endCycle s t with busRdata := 0, hostQ := q } :=
  step_of_driveData rfl

/-- The engine's cycle leaves `bus_rdata` to the host's port. -/
theorem engineAfterHost_busRdata {s0 s t : State} (h : engineAfterHost s0 s = .next t) : t.busRdata = s.busRdata := by
  unfold engineAfterHost engineCycle at h
  split at h
  · split at h
    · split at h
      · rename_i op hop
        rw [runOp_frame hop h]
      · cases h
    · cases h
      rw [gtaNoRequest_frame]
  · cases h
    rw [gtaNoRequest_frame]

/-- In a reset cycle a read still drives its register's value; all else is reset (R311). -/
theorem step_read_of_rst {s : State} {w : BusWord} {q : List HostIn} (hw : busWe w = false)
    (hd : decodeHostBus w ≠ .reservedAddress) : step { s with hostQ := ⟨true, some w⟩ :: q } =
      andThen (step { s with hostQ := ⟨true, none⟩ :: q }) fun t =>
        .next { t with busRdata := memRead (busAddr w) s } := by
  have hwe : ¬ busWe w = true := by simp [hw]
  show (if busWe w = true then _ else if decodeHostBus w = .reservedAddress then _ else _) = _
  rw [if_neg hwe, if_neg hd]
  rfl

theorem resetCycle_busRdata_of_noRead {s t : State} (h : resetCycle s = .next t)
    (hw : ∀ w, s.hostIn.access = some w → busWe w = true) : t.busRdata = 0 := by
  unfold resetCycle at h
  split at h
  · cases h
    rfl
  · rename_i w ha
    rw [if_pos (hw w ha)] at h
    cases h
    rfl

/-- Settles O14: a read only drives the bus, and the engine does not look at it; without a read the port drives
0x00, and the rest of the cycle leaves it there. -/
theorem readsOnlyDriveTheBus : Obligations.ReadsOnlyDriveTheBus := by
  refine ⟨fun s rst w q hw hd => ?_, fun s t h hw => ?_⟩
  · cases rst with
    | true => exact step_read_of_rst hw hd
    | false =>
      rw [step_of_driveData (hostPort_of_read rfl hw hd), step_of_noAccess]
      cases engineAfterHost s s with
      | next t => rfl
      | fault _ | refused _ => rfl
  · cases hr : s.hostIn.rst with
    | true =>
      simp only [step, clockCycle, hr, if_true] at h
      exact resetCycle_busRdata_of_noRead h hw
    | false =>
      rw [step_of_rst_low hr] at h
      obtain ⟨s1, h1, h⟩ := andThen_eq_next h
      obtain ⟨s2, h2, h⟩ := andThen_eq_next h
      cases h
      calc s2.busRdata = s1.busRdata := engineAfterHost_busRdata h2
        _ = 0 := hostPort_busRdata_of_noRead h1 hw

end Sys2Proof.Machine
end

section
/-! PROOFS. The register map of R64 and its edges, and the fields of the status registers; O12, O13 and O54. -/

namespace Sys2Proof.Machine

/-! ### The map -/

/-- The reserved addresses read 0x00 (R72). -/
theorem memRead_of_reservedAddr {a : BitVec 4} (s : State) (h : 0xA ≤ a.toNat) : memRead a s = 0 := by
  unfold memRead
  split
  case h_10 => rfl
  all_goals omega

/-- Settles O12: the map's rows are memRead's own, and CMD is the only address that can be written. -/
theorem registerMapReads : Obligations.RegisterMapReads := by
  refine ⟨fun s => ?_, fun a v s ha => memWrite_of_ne_zero v s ha, by decide⟩
  exact ⟨rfl, rfl, rfl, rfl, rfl, rfl, rfl, rfl, rfl, rfl, fun a ha => memRead_of_reservedAddr s ha⟩

/-! ### Its edges -/

theorem ne_zero_of_one_le {a : BitVec 4} (h : 1 ≤ a.toNat) : a ≠ 0 := fun h0 => by simp [h0] at h

/-- A read of CMD leaves the cycle as it is without an access (R256). -/
theorem step_of_readCmd (s : State) (d : Byte) (q : List HostIn) :
    step { s with hostQ := ⟨false, some (busWord false 0 d)⟩ :: q } = step { s with hostQ := ⟨false, none⟩ :: q } := by
  have hd := decodeHostBus_eq_readCmd (busWe_busWord false 0 d) (busAddr_busWord false 0 d)
  have hport := hostPort_of_read (s := { s with hostQ := ⟨false, some (busWord false 0 d)⟩ :: q }) rfl
    (busWe_busWord false 0 d) (by rw [hd]; decide)
  rw [busAddr_busWord] at hport
  rw [step_of_driveData hport, step_of_noAccess]
  rfl

/-- A write of a read-only register leaves the cycle as it is without an access (R73, R257). -/
theorem step_of_readOnlyWrite (s : State) {w : BusWord} (hd : decodeHostBus w = .readOnlyWrite) (q : List HostIn) :
    step { s with hostQ := ⟨false, some w⟩ :: q } = step { s with hostQ := ⟨false, none⟩ :: q } := by
  rw [step_of_driveData (hostPort_of_readOnlyWrite rfl hd), step_of_noAccess]

/-- An access to a reserved address stops the cycle (R72). -/
theorem step_of_reservedAddress (s : State) {w : BusWord} (hd : decodeHostBus w = .reservedAddress) (q : List HostIn) :
    step { s with hostQ := ⟨false, some w⟩ :: q } = .refused (.reservedAddress w) := by
  rw [step_of_rst_low rfl, hostPort_of_reservedAddress rfl hd]
  rfl

/-- Settles O13: each edge is a class of the decoder. -/
theorem registerMapEdges : Obligations.RegisterMapEdges := by
  intro s a we d q
  refine ⟨rfl, step_of_readCmd s d q, fun h => memWrite_of_ne_zero d s (ne_zero_of_one_le h), fun h1 h9 => ?_,
    fun hA => ⟨memRead_of_reservedAddr s hA, ?_⟩⟩
  · refine step_of_readOnlyWrite s (decodeHostBus_eq_readOnlyWrite (busWe_busWord true a d) ?_ ?_) q
    · rw [busAddr_busWord]
      exact ne_zero_of_one_le h1
    · rwa [busAddr_busWord]
  · exact step_of_reservedAddress s (decodeHostBus_eq_reservedAddress (by rwa [busAddr_busWord])) q

/-! ### The status registers -/

theorem not_busy_and_ended (e : EngSt) : ¬ (e.busy = true ∧ e.ended = true) := by
  cases e <;> decide

theorem statusByte_busy (s : State) : s.statusByte.getLsbD 0 = s.oBusy := by
  rw [State.statusByte, BitVec.getLsbD_append]
  simp [State.oBusy]

theorem statusByte_done (s : State) : s.statusByte.getLsbD 1 = s.oDone := by
  rw [State.statusByte, BitVec.getLsbD_append, if_neg (by decide), BitVec.getLsbD_append]
  simp [State.oDone]

/-- Above the flags stand the result, the family and the zeros. -/
theorem statusByte_aboveFlags (s : State) (start len : Nat) : s.statusByte.extractLsb' (start + 2) len =
    BitVec.extractLsb' start len ((0 : BitVec 3) ++ famBit s.fam ++ s.result.code) := by
  rw [State.statusByte, BitVec.extractLsb'_append_eq_of_le (by omega), BitVec.extractLsb'_append_eq_of_le (by omega)]
  rfl

theorem statusByte_result (s : State) : s.statusByte.extractLsb' 2 2 = s.result.code := by
  rw [statusByte_aboveFlags s 0 2, BitVec.extractLsb'_append_eq_right]

theorem statusByte_fam (s : State) : s.statusByte.extractLsb' 4 1 = famBit s.fam := by
  rw [statusByte_aboveFlags s 2 1, BitVec.extractLsb'_append_eq_of_le (by decide), BitVec.extractLsb'_append_eq_right]

theorem statusByte_zeros (s : State) : s.statusByte.extractLsb' 5 3 = 0 := by
  rw [statusByte_aboveFlags s 3 3, BitVec.extractLsb'_append_eq_of_le (by decide), BitVec.extractLsb'_append_eq_left]

theorem posByte_stepIx (s : State) : s.posByte.extractLsb' 3 3 = s.stepIx := by
  rw [State.posByte, BitVec.extractLsb'_append_eq_of_le (by decide), BitVec.extractLsb'_append_eq_right]

theorem posByte_zeros (s : State) : s.posByte.extractLsb' 6 2 = 0 := by
  rw [State.posByte, BitVec.extractLsb'_append_eq_of_le (by decide), BitVec.extractLsb'_append_eq_left]

/-- Settles O54: each register is its fields side by side; its lowest and highest field are read off at once. -/
theorem statusFieldsAndOutputs : Obligations.StatusFieldsAndOutputs := by
  intro s
  have hstate : s.stateByte.extractLsb' 0 3 = s.st.code ∧ s.stateByte.extractLsb' 3 5 = 0 :=
    ⟨BitVec.extractLsb'_append_eq_right, BitVec.extractLsb'_append_eq_left⟩
  have hpos : s.posByte.extractLsb' 0 3 = s.ph.code := BitVec.extractLsb'_append_eq_right
  have hbitcnt : s.bitcntByte.extractLsb' 0 6 = s.bitcnt ∧ s.bitcntByte.extractLsb' 6 2 = 0 :=
    ⟨BitVec.extractLsb'_append_eq_right, BitVec.extractLsb'_append_eq_left⟩
  exact ⟨statusByte_busy s, statusByte_done s, statusByte_result s, statusByte_fam s, statusByte_zeros s,
    not_busy_and_ended s.st, hstate.1, hstate.2, hpos, posByte_stepIx s, posByte_zeros s, hbitcnt⟩

end Sys2Proof.Machine
end

section
/-! PROOFS. The encoding: the rows of each opcode map are disjoint, so a word decodes by the row it matches; that row's
instruction has the word as its encoding; a word no row matches falls in its class of R98. O1-O5 and O27. -/

namespace Sys2Proof

/-! ### The rows are disjoint -/

/-- Two patterns that differ in a bit both masks fix are matched by no common word. -/
theorem not_both_match {n : Nat} {w m₁ p₁ m₂ p₂ : BitVec n} (h : p₁ &&& m₂ ≠ p₂ &&& m₁) :
    ¬ ((w &&& m₁ == p₁) = true ∧ (w &&& m₂ == p₂) = true) := by
  rintro ⟨h₁, h₂⟩
  rw [← beq_iff_eq.mp h₁, ← beq_iff_eq.mp h₂] at h
  exact h (by ac_rfl)

theorem hostRows_disjoint (w : BusWord) :
    hostRows.Pairwise fun a b => ¬ (a.accepts w = true ∧ b.accepts w = true) := by
  have hdiffer : hostRows.Pairwise fun a b => a.pat &&& b.mask ≠ b.pat &&& a.mask := by decide
  exact hdiffer.imp not_both_match

theorem gtaRows_disjoint (w : ReqWord) :
    gtaRows.Pairwise fun a b => ¬ (a.accepts w = true ∧ b.accepts w = true) := by
  have hdiffer : gtaRows.Pairwise fun a b => a.pat &&& b.mask ≠ b.pat &&& a.mask := by decide
  exact hdiffer.imp not_both_match

/-- Settles O3: any two patterns of a map differ in a bit that both rows fix. -/
theorem opcodeRowsAreDisjoint : Obligations.OpcodeRowsAreDisjoint := ⟨hostRows_disjoint, gtaRows_disjoint⟩

/-! ### A word decodes by the row it matches -/

/-- Where at most one element of a list satisfies p, the search finds the one that does. -/
theorem find?_eq_some_of_disjoint {α : Type} {p : α → Bool} {l : List α} {r : α}
    (hl : l.Pairwise fun a b => ¬ (p a = true ∧ p b = true)) (hr : r ∈ l) (hp : p r = true) :
    l.find? p = some r := by
  cases hf : l.find? p with
  | none => exact absurd hp (List.find?_eq_none.mp hf r hr)
  | some x =>
    have hsymm : Std.Symm fun a b => ¬ (p a = true ∧ p b = true) := ⟨fun _ _ h hba => h hba.symm⟩
    have heq : x = r := by
      by_contra hne
      exact hl.forall (List.mem_of_find?_eq_some hf) hr hne ⟨List.find?_some hf, hp⟩
    rw [heq]

theorem decodeHostBus_of_accepts {r : HostRow} (hr : r ∈ hostRows) {w : BusWord} (h : r.accepts w = true) :
    decodeHostBus w = .instr (r.build w) := by
  rw [decodeHostBus, find?_eq_some_of_disjoint (hostRows_disjoint w) hr h]

theorem decodeGtaReq_of_accepts {r : GtaRow} (hr : r ∈ gtaRows) {w : ReqWord} (h : r.accepts w = true) :
    decodeGtaReq w = .instr (r.build w) := by
  rw [decodeGtaReq, find?_eq_some_of_disjoint (gtaRows_disjoint w) hr h]

theorem decode_hostBus_eq_some_iff {w : BusWord} {i : Instr} :
    decode (.hostBus w) = some i ↔ decodeHostBus w = .instr i := by
  cases h : decodeHostBus w <;> simp [decode, h]

theorem decode_gtaReq_eq_some_iff {w : ReqWord} {i : Instr} :
    decode (.gtaReq w) = some i ↔ decodeGtaReq w = .instr i := by
  cases h : decodeGtaReq w <;> simp [decode, h]

/-! ### Decoding an encoding -/

/-- Every instruction has its row in the opcode map of its port. -/
theorem tableRow (i : Instr) : Laws.TableRow.Statement i :=
  match i with
  | .nop f => Laws.TableRow.nop f
  | .readDht11 => Laws.TableRow.readDht11
  | .readDht22 => Laws.TableRow.readDht22
  | .rdStatus d => Laws.TableRow.rdStatus d
  | .rdData0 d => Laws.TableRow.rdData0 d
  | .rdData1 d => Laws.TableRow.rdData1 d
  | .rdData2 d => Laws.TableRow.rdData2 d
  | .rdData3 d => Laws.TableRow.rdData3 d
  | .rdPinerr d => Laws.TableRow.rdPinerr d
  | .rdState d => Laws.TableRow.rdState d
  | .rdPos d => Laws.TableRow.rdPos d
  | .rdBitcnt d => Laws.TableRow.rdBitcnt d
  | .setLow => Laws.TableRow.setLow
  | .setHigh => Laws.TableRow.setHigh
  | .isLow => Laws.TableRow.isLow
  | .isHigh => Laws.TableRow.isHigh
  | .delayUs n => Laws.TableRow.delayUs n
  | .delayMs n => Laws.TableRow.delayMs n

/-- Settles O1: the word of an instruction matches the instruction's row, and so no other row. -/
theorem decodeOfEncode : Obligations.DecodeOfEncode := by
  intro i
  have hrow := tableRow i
  unfold Laws.TableRow.Statement at hrow
  cases he : encode i with
  | hostBus w =>
    rw [he] at hrow
    obtain ⟨r, hr, hacc, hbuild⟩ := hrow
    rw [decode_hostBus_eq_some_iff, decodeHostBus_of_accepts hr hacc, hbuild]
  | gtaReq w =>
    rw [he] at hrow
    obtain ⟨r, hr, hacc, hbuild⟩ := hrow
    rw [decode_gtaReq_eq_some_iff, decodeGtaReq_of_accepts hr hacc, hbuild]

/-- Settles O5: each listed word is the encoding of its instruction. -/
theorem listedWordsDecode : Obligations.ListedWordsDecode :=
  ⟨decodeOfEncode (.nop false), decodeOfEncode (.nop true), decodeOfEncode .readDht11, decodeOfEncode .readDht22,
    decodeOfEncode (.rdStatus 0), decodeOfEncode (.rdBitcnt 0), decodeOfEncode .setLow, decodeOfEncode .isHigh,
    decodeOfEncode (.delayUs 35), decodeOfEncode (.delayMs 18)⟩

/-! ### Encoding a decoded word -/

/-- A word of the host bus is its fields W, A and D side by side (R91). -/
theorem busWord_fields (w : BusWord) : busWord (busWe w) (busAddr w) (busData w) = w := by
  have htop : BitVec.ofBool (busWe w) = w.extractLsb' 12 1 := by
    apply BitVec.eq_of_getLsbD_eq
    intro k hk
    obtain rfl : k = 0 := by omega
    simp [busWe]
  rw [busWord, htop, busAddr, busData, BitVec.extractLsb'_append_extractLsb'_eq_extractLsb' (by decide),
    BitVec.extractLsb'_append_extractLsb'_eq_extractLsb' (by decide)]
  exact BitVec.extractLsb'_eq_self

/-- A word of the request port is its fields OP and ARG side by side (R93). -/
theorem reqWord_fields (w : ReqWord) : reqWord (reqOp w) (reqArg w) = w := by
  rw [reqWord, reqOp, reqArg, BitVec.extractLsb'_append_extractLsb'_eq_extractLsb' (by decide)]
  exact BitVec.extractLsb'_eq_self

/-- A row that fixes every bit is matched by its pattern alone. -/
theorem eq_of_and_allOnes_beq {n : Nat} {w p : BitVec n} (h : (w &&& BitVec.allOnes n == p) = true) : w = p := by
  rwa [BitVec.and_allOnes, beq_iff_eq] at h

/-- NOP leaves bit 1 of its word free (R96). -/
theorem nopWord_of_and_mask {w : BusWord} (h : w &&& 0x1FFD = 0x1000) :
    busWord true 0 (cmdByte (w.getLsbD 1) false) = w := by
  have hmask : BitVec.allOnes 13 = 0x1FFD ||| BitVec.twoPow 13 1 := by decide
  have hbit : ∀ f : Bool, busWord true 0 (cmdByte f false) = 0x1000 ||| if f then BitVec.twoPow 13 1 else 0#13 := by
    decide
  symm
  calc w = w &&& (0x1FFD ||| BitVec.twoPow 13 1) := by rw [← hmask, BitVec.and_allOnes]
    _ = (w &&& 0x1FFD) ||| (w &&& BitVec.twoPow 13 1) := BitVec.and_or_distrib_left
    _ = 0x1000 ||| if w.getLsbD 1 then BitVec.twoPow 13 1 else 0#13 := by rw [h, BitVec.and_twoPow]
    _ = busWord true 0 (cmdByte (w.getLsbD 1) false) := (hbit _).symm

/-- The instruction a row of R96 builds from a word has that word as its encoding. -/
theorem encode_build_of_hostRow {r : HostRow} (hr : r ∈ hostRows) {w : BusWord} (h : r.accepts w = true) :
    encode (r.build w) = .hostBus w := by
  obtain ⟨hwe, haddr⟩ := fields_of_accepts hr h
  have hfields : busWord (busWe r.pat) (busAddr r.pat) (busData w) = w := by
    rw [← hwe, ← haddr, busWord_fields]
  simp only [hostRows, List.mem_cons, List.not_mem_nil, or_false] at hr
  obtain rfl | hstart | hread : _ ∨ (_ ∨ _) ∨ _ := by simpa only [or_assoc] using hr
  · exact congrArg PortWord.hostBus (nopWord_of_and_mask (beq_iff_eq.mp h))
  · rcases hstart with rfl | rfl <;> exact congrArg PortWord.hostBus (eq_of_and_allOnes_beq h).symm
  · rcases hread with rfl | rfl | rfl | rfl | rfl | rfl | rfl | rfl | rfl <;> exact congrArg PortWord.hostBus hfields

/-- A field of a matching word that the mask covers is the pattern's. -/
theorem field_of_and_beq {n : Nat} {w m p : BitVec n} {start len : Nat} (h : (w &&& m == p) = true)
    (hm : m.extractLsb' start len = BitVec.allOnes len) : w.extractLsb' start len = p.extractLsb' start len := by
  rw [← beq_iff_eq.mp h, BitVec.extractLsb'_and, hm, BitVec.and_allOnes]

/-- Every row of R97 fixes OP, so a word has that of the row it matches. -/
theorem reqOp_of_accepts {r : GtaRow} (hr : r ∈ gtaRows) {w : ReqWord} (h : r.accepts w = true) :
    reqOp w = reqOp r.pat := by
  have hop : ∀ r ∈ gtaRows, reqOp r.mask = BitVec.allOnes 3 := by decide
  exact field_of_and_beq h (hop r hr)

/-- The primitive a row of R97 builds from a word has that word as its encoding. -/
theorem encode_build_of_gtaRow {r : GtaRow} (hr : r ∈ gtaRows) {w : ReqWord} (h : r.accepts w = true) :
    encode (r.build w) = .gtaReq w := by
  have hfields : reqWord (reqOp r.pat) (reqArg w) = w := by
    rw [← reqOp_of_accepts hr h, reqWord_fields]
  simp only [gtaRows, List.mem_cons, List.not_mem_nil, or_false] at hr
  obtain hpin | hdelay : (_ ∨ _ ∨ _ ∨ _) ∨ (_ ∨ _) := by simpa only [or_assoc] using hr
  · rcases hpin with rfl | rfl | rfl | rfl <;> exact congrArg PortWord.gtaReq (eq_of_and_allOnes_beq h).symm
  · rcases hdelay with rfl | rfl <;> exact congrArg PortWord.gtaReq hfields

/-- Settles O2: a word that decodes matches a row, and the row's instruction is encoded as that word. -/
theorem encodeOfDecode : Obligations.EncodeOfDecode := by
  intro p i h
  cases p with
  | hostBus w =>
    obtain ⟨r, hr, hacc, rfl⟩ := decodeHostBus_row (decode_hostBus_eq_some_iff.mp h)
    exact encode_build_of_hostRow hr hacc
  | gtaReq w =>
    obtain ⟨r, hr, hacc, rfl⟩ := decodeGtaReq_row (decode_gtaReq_eq_some_iff.mp h)
    exact encode_build_of_gtaRow hr hacc

/-! ### Words outside the maps -/

/-- A command row admits no reserved bit: it fixes D[7:2] at 0 (R92, R96). -/
theorem cmdReserved_of_accepts {r : HostRow} (hr : r ∈ hostRows) {w : BusWord} (h : r.accepts w = true)
    (hw : busWe w = true) : Machine.cmdReserved (busData w) = 0 := by
  have hfixed : ∀ r ∈ hostRows, busWe r.pat = true →
      Machine.cmdReserved (busData r.mask) = BitVec.allOnes 6 ∧ Machine.cmdReserved (busData r.pat) = 0 := by decide
  obtain ⟨hmask, hpat⟩ := hfixed r hr (by rwa [← (fields_of_accepts hr h).1])
  have hdata : (busData w &&& busData r.mask == busData r.pat) = true := by
    rw [← beq_iff_eq.mp h, busData, busData, busData, BitVec.extractLsb'_and]
    exact beq_self_eq_true _
  exact (field_of_and_beq hdata hmask).trans hpat

theorem decodeHostBus_eq_reservedCommand {w : BusWord} (hw : busWe w = true) (h0 : busAddr w = 0)
    (hrsv : Machine.cmdReserved (busData w) ≠ 0) : decodeHostBus w = .reservedCommand := by
  have hnone : hostRows.find? (fun r => r.accepts w) = none :=
    List.find?_eq_none.mpr fun r hr hacc => hrsv (cmdReserved_of_accepts hr hacc hw)
  rw [decodeHostBus, hnone, reservedHostClass]
  simp [hw, h0]

/-- A row of OP 1-4 takes no argument (R97). -/
theorem reqArg_of_accepts {r : GtaRow} (hr : r ∈ gtaRows) {w : ReqWord} (h : r.accepts w = true)
    (h4 : (reqOp w).toNat ≤ 4) : reqArg w = 0 := by
  have hfixed : ∀ r ∈ gtaRows, (reqOp r.pat).toNat ≤ 4 → reqArg r.mask = BitVec.allOnes 16 ∧ reqArg r.pat = 0 := by
    decide
  obtain ⟨hmask, hpat⟩ := hfixed r hr (by rwa [← reqOp_of_accepts hr h])
  exact (field_of_and_beq h hmask).trans hpat

theorem decodeGtaReq_of_not_accepts {w : ReqWord} (h : ∀ r ∈ gtaRows, ¬ r.accepts w = true) :
    decodeGtaReq w = if reqOp w = 0 then .noRequest else .reserved := by
  rw [decodeGtaReq, List.find?_eq_none.mpr h]

/-- No row stands at OP = 0 or OP = 7 (R97). -/
theorem not_accepts_of_reqOp {w : ReqWord} (hop : reqOp w = 0 ∨ reqOp w = 7) :
    ∀ r ∈ gtaRows, ¬ r.accepts w = true := by
  have hmap : ∀ r ∈ gtaRows, ¬ (reqOp r.pat = 0 ∨ reqOp r.pat = 7) := by decide
  intro r hr hacc
  rw [reqOp_of_accepts hr hacc] at hop
  exact hmap r hr hop

theorem decodeGtaReq_eq_noRequest {w : ReqWord} (hop : reqOp w = 0) : decodeGtaReq w = .noRequest := by
  rw [decodeGtaReq_of_not_accepts (not_accepts_of_reqOp (.inl hop)), if_pos hop]

theorem decodeGtaReq_eq_reserved_of_op {w : ReqWord} (hop : reqOp w = 7) : decodeGtaReq w = .reserved := by
  rw [decodeGtaReq_of_not_accepts (not_accepts_of_reqOp (.inr hop)), if_neg (by rw [hop]; decide)]

theorem decodeGtaReq_eq_reserved_of_arg {w : ReqWord} (h1 : 1 ≤ (reqOp w).toNat) (h4 : (reqOp w).toNat ≤ 4)
    (harg : reqArg w ≠ 0) : decodeGtaReq w = .reserved := by
  have hop : reqOp w ≠ 0 := fun h0 => by simp [h0] at h1
  rw [decodeGtaReq_of_not_accepts fun r hr hacc => harg (reqArg_of_accepts hr hacc h4), if_neg hop]

/-- Settles O4: a word's fields tell its class, and a delay of length 0 is refused by its meaning. -/
theorem reservedWordsAreClassified : Obligations.ReservedWordsAreClassified := by
  refine ⟨fun d hd => ?_, fun a d h1 h9 => ?_, fun d => ?_, fun we a d hA => ?_, fun n => ⟨?_, ?_⟩,
    fun op n h1 h4 hn => ?_, fun s => ⟨rfl, rfl⟩⟩
  · refine decodeHostBus_eq_reservedCommand (busWe_busWord ..) (busAddr_busWord ..) ?_
    rwa [Laws.TableRow.busData_busWord]
  · rw [← busAddr_busWord true a d] at h1 h9
    exact decodeHostBus_eq_readOnlyWrite (busWe_busWord ..) (Machine.ne_zero_of_one_le h1) h9
  · exact decodeHostBus_eq_readCmd (busWe_busWord ..) (busAddr_busWord ..)
  · exact decodeHostBus_eq_reservedAddress (by rwa [busAddr_busWord])
  · exact decodeGtaReq_eq_noRequest (reqOp_reqWord 0 n)
  · exact decodeGtaReq_eq_reserved_of_op (reqOp_reqWord 7 n)
  · rw [← reqOp_reqWord op n] at h1 h4
    exact decodeGtaReq_eq_reserved_of_arg h1 h4 (by rwa [reqArg_reqWord])

/-! ### The response word -/

namespace Machine

theorem word_done (r : GtaRsp) : r.word.getLsbD 10 = r.done := by
  simp only [GtaRsp.word, BitVec.getLsbD_append]
  simp

theorem word_err (r : GtaRsp) : r.word.getLsbD 9 = r.err := by
  simp only [GtaRsp.word, BitVec.getLsbD_append]
  simp

theorem word_val (r : GtaRsp) : r.word.getLsbD 8 = r.val := by
  simp only [GtaRsp.word, BitVec.getLsbD_append]
  simp

theorem word_code (r : GtaRsp) : r.word.extractLsb' 0 8 = r.code := BitVec.extractLsb'_append_eq_right

/-- Settles O27: the response word is its fields side by side, and the four words follow by evaluation. -/
theorem responseWords : Obligations.ResponseWords :=
  ⟨fun r => ⟨word_done r, word_err r, word_val r, word_code r⟩, by decide, by decide, by decide, by decide⟩

end Machine
end Sys2Proof
end

section
/-! PROOFS. The engine's cycle in the issue cycle of a primitive, beside any host access that stops nothing, and in a
cycle without an access; O7. -/

namespace Sys2Proof.Machine

/-- A position whose operation asks for a primitive runs it, and the engine reacts to its response (R123). -/
theorem engineCycle_of_request {s : State} {op : EngOp} {i : Instr} (hd : s.dcnt = 0) (hop : s.op = some op)
    (hi : requestOf op s = some i) : engineCycle s =
      andThen (exec i (presentRequest s.request s)) fun t => .next (engineReact op t) := by
  have hbusy := busy_of_op hop
  have ht : op ≠ .transit := by rintro rfl; cases hi
  have hv : op ≠ .validate := by rintro rfl; cases hi
  have hdecode : decodeGtaReq s.request = .instr i := by
    rw [request_of_op hbusy hd hop hi, decodeGtaReq_requestWord hi]
  simp only [engineCycle, hbusy, if_true, hop, runOp_gta s ht hv, hd, issue, hdecode]

/-- Without an access the host's port puts 0x00 on the bus, and the engine has its cycle (R62). -/
theorem step_of_hostIn_quiet {s : State} (hin : s.hostIn = ⟨false, none⟩) (hb : s.busy = true) : step s =
    andThen (engineCycle (driveData 0 s)) fun t => .next (endCycle s t) := by
  have hport : hostPort s = .next (driveData 0 s) := by simp only [hostPort, hin]
  rw [step_of_rst_low (by rw [hin]), hport, andThen_next, engineAfterHost, if_pos hb]

theorem andThen_assoc (o : Res) (f g : State → Res) :
    andThen (andThen o f) g = andThen o fun s => andThen (f s) g := by
  cases o <;> rfl

/-- Settles O7: the word of the operation's primitive decodes to it, and the host's port, quiet, leaves the position and
so the request as they are. -/
theorem stepRunsEngineRequest : Obligations.StepRunsEngineRequest := by
  intro s op i hin hb hd hop hi
  refine ⟨by rw [request_of_op hb hd hop hi, decodeGtaReq_requestWord hi], ?_⟩
  rw [step_of_hostIn_quiet hin hb, engineCycle_of_request (s := driveData 0 s) hd hop hi, andThen_assoc]
  rfl

/-! ### Beside a host access -/

/-- A host access that decodes to an instruction runs in any state. -/
theorem exec_host_runs {i : Instr} (hi : i.isPrimitive = false) (s : State) : ∃ t, exec i s = .next t := by
  cases i with
  | setLow | setHigh | isLow | isHigh | delayUs _ | delayMs _ => cases hi
  | nop _ | readDht11 | readDht22 | rdStatus _ | rdData0 _ | rdData1 _ | rdData2 _ | rdData3 _ | rdPinerr _
  | rdState _ | rdPos _ | rdBitcnt _ => exact ⟨_, rfl⟩

/-- A host input that is plain stops nothing at the port (R98). -/
theorem hostPort_of_plain {s : State} (h : s.hostIn.plain = true) : ∃ t, hostPort s = .next t := by
  unfold hostPort
  split
  · exact ⟨_, rfl⟩
  · rename_i w ha
    split
    · rename_i i hd
      exact exec_host_runs (decodeHostBus_not_primitive hd) s
    · exact ⟨_, rfl⟩
    · exact ⟨_, rfl⟩
    all_goals
      rename_i hd
      simp [HostIn.plain, ha, hd] at h

/-- A plain cycle that starts busy: the host's port does no more than drive the bus, whatever it is asked (R244). -/
theorem step_of_plain_busy {s : State} (h : s.hostIn.plain = true) (hb : s.busy = true) : ∃ v, step s =
    andThen (engineCycle (driveData v s)) fun t => .next (endCycle s t) := by
  have hrst : s.hostIn.rst = false := by simp_all [HostIn.plain]
  obtain ⟨u, hu⟩ := hostPort_of_plain h
  obtain ⟨v, rfl | ⟨hfree, -⟩⟩ := hostPort_cases hu
  · exact ⟨v, by rw [step_of_rst_low hrst, hu, andThen_next, engineAfterHost, if_pos hb]⟩
  · simp [hb] at hfree

end Sys2Proof.Machine
end

section
/-! PROOFS. The pin primitives in their issue cycle, and the line; O21 to O24 and O29. -/

namespace Sys2Proof.Machine

/-! ### With and without a pin fault -/

section
variable {s : State}

theorem pinWrite_of_fault (low : Bool) (h : s.draw.pinFault = true) :
    pinWrite low s = respond (.error s.draw.pinFaultCode) s := by
  rw [pinWrite, if_pos h]

theorem pinWrite_of_noFault (low : Bool) (h : s.draw.pinFault = false) :
    pinWrite low s = drivePad low (respond .ok s) := by
  rw [pinWrite, if_neg (by simp [h])]

theorem pinQuery_of_fault (level : Bool) (h : s.draw.pinFault = true) :
    pinQuery level s = respond (.error s.draw.pinFaultCode) s := by
  rw [pinQuery, if_pos h]

theorem pinQuery_of_noFault (level : Bool) (h : s.draw.pinFault = false) :
    pinQuery level s = respond (.answer (s.seen == level)) s := by
  rw [pinQuery, if_neg (by simp [h])]

theorem exec_isLow_of_noFault (h : s.draw.pinFault = false) :
    exec .isLow s = .next { s with gtaRsp := ⟨true, false, !s.seen, 0⟩ } := by
  rw [exec, execIsLow, pinQuery_of_noFault false h, beq_false]
  rfl

theorem exec_isHigh_of_noFault (h : s.draw.pinFault = false) :
    exec .isHigh s = .next { s with gtaRsp := ⟨true, false, s.seen, 0⟩ } := by
  rw [exec, execIsHigh, pinQuery_of_noFault true h, beq_true]
  rfl

/-! ### The line -/

theorem line_of_padLow (h : s.padLow = true) : s.line = false := by simp [State.line, h]

theorem line_of_padReleased (h : s.padLow = false) : s.line = s.draw.line := by simp [State.line, h]

end

/-- Settles O21: a pad write answers in its issue cycle, and drives the pad low unless a fault is drawn. -/
theorem setLowDrivesThePad : Obligations.SetLowDrivesThePad := fun _ =>
  ⟨rfl, fun h => congrArg Host.Outcome.next (pinWrite_of_fault true h),
    fun h => congrArg Host.Outcome.next (pinWrite_of_noFault true h)⟩

/-- Settles O22: as O21, with the pad released, so that nothing but the environment sets the line. -/
theorem setHighReleasesThePad : Obligations.SetHighReleasesThePad := fun _ =>
  ⟨rfl, fun h => congrArg Host.Outcome.next (pinWrite_of_fault false h),
    fun h => ⟨_, congrArg Host.Outcome.next (pinWrite_of_noFault false h), rfl, line_of_padReleased rfl⟩⟩

/-- Settles O23: a query answers in its issue cycle, from the level seen unless a fault is drawn. -/
theorem isLowAnswersFromSeen : Obligations.IsLowAnswersFromSeen := fun _ =>
  ⟨rfl, fun h => congrArg Host.Outcome.next (pinQuery_of_fault false h), exec_isLow_of_noFault⟩

/-- Settles O24: as O23, beside the answer `IS_LOW` gives in the same state. -/
theorem isHighAnswersFromSeen : Obligations.IsHighAnswersFromSeen := fun _ =>
  ⟨rfl, fun h => congrArg Host.Outcome.next (pinQuery_of_fault true h),
    fun h => ⟨exec_isHigh_of_noFault h, exec_isLow_of_noFault h⟩⟩

theorem engineReact_padLow (op : EngOp) (s : State) : (engineReact op s).padLow = s.padLow := by
  rw [engineReact_frame]

/-- Settles O29: the line is low while the pad pulls it, and `SET_LOW` without a fault leaves the pad pulling, whatever
the host does beside it. -/
theorem lineIsWiredAnd : Obligations.LineIsWiredAnd := by
  refine ⟨fun s => ?_, fun s hplain hst hix hd hfault => ?_⟩
  · cases hp : s.padLow with
    | true => exact line_of_padLow hp
    | false => exact line_of_padReleased hp
  · have hop : s.op = some .setLow := by simp [State.op, opAt, hst, hix]
    obtain ⟨v, hstep⟩ := step_of_plain_busy hplain (busy_of_op hop)
    rw [engineCycle_of_request (s := driveData v s) hd hop rfl] at hstep
    have hpad : (engineReact .setLow (pinWrite true (presentRequest s.request (driveData v s)))).padLow = true := by
      rw [engineReact_padLow, pinWrite_of_noFault (s := presentRequest s.request (driveData v s)) true hfault]
      rfl
    exact ⟨_, hstep, hpad, line_of_padLow hpad⟩

end Sys2Proof.Machine
end

section
/-! PROOFS. A delay from its issue cycle to its last; O25 and O26. -/

namespace Sys2Proof.Machine

/-- How the GTA stands at the end of cycle k of a delay of `len` cycles, the issue cycle being cycle 0: DONE in the last
cycle alone, the rest of the cycles in `dcnt`, and the delay in `gop` until it is over (R37, R128). -/
structure AfterDelayCycle (g : GtaOp) (len k : Nat) (s : State) : Prop where
  rsp : s.gtaRsp = if k + 1 = len then .ok else .quiet
  dcnt : s.dcnt = len - 1 - k
  gop : s.gop = if k + 1 = len then .none else g

/-- The issue cycle, with the GTA idle before it. -/
theorem afterDelayCycle_startDelay (g : GtaOp) (len : Nat) {s : State} (hd : s.dcnt = 0) (hg : s.gop = .none) :
    AfterDelayCycle g len 0 (startDelay g len s) := by
  obtain ⟨rfl, h⟩ | ⟨hlen, h⟩ := startDelay_cases g len s
  · rw [h]
    exact ⟨rfl, hd, hg⟩
  · have hlast : ¬ 0 + 1 = len := by omega
    rw [h]
    exact ⟨(if_neg hlast).symm, rfl, (if_neg hlast).symm⟩

/-- A later cycle. -/
theorem AfterDelayCycle.next {g : GtaOp} {len k : Nat} {s : State} (h : AfterDelayCycle g len k s)
    (hk : k + 1 < len) : AfterDelayCycle g len (k + 1) (gtaNoRequest s) := by
  have hd := h.dcnt
  have hg : s.gop = g := h.gop.trans (if_neg (by omega))
  obtain ⟨h0, -⟩ | ⟨h1, ht⟩ | ⟨h2, ht⟩ := gtaNoRequest_cases s
  · omega
  · have hlast : k + 1 + 1 = len := by omega
    rw [ht]
    exact ⟨(if_pos hlast).symm, by simp only; omega, (if_pos hlast).symm⟩
  · have hlast : ¬ k + 1 + 1 = len := by omega
    rw [ht]
    exact ⟨(if_neg hlast).symm, by simp only; omega, hg.trans (if_neg hlast).symm⟩

theorem AfterDelayCycle.iterate {g : GtaOp} {len : Nat} {s : State} (h : AfterDelayCycle g len 0 s) {k : Nat}
    (hk : k < len) : AfterDelayCycle g len k (gtaNoRequest^[k] s) := by
  induction k with
  | zero => exact h
  | succ k ih =>
    rw [Function.iterate_succ_apply']
    exact (ih (by omega)).next hk

theorem startDelay_frame (g : GtaOp) (len : Nat) (s : State) : startDelay g len s =
    { s with gtaRsp := (startDelay g len s).gtaRsp, dcnt := (startDelay g len s).dcnt,
             gop := (startDelay g len s).gop } := by
  obtain ⟨-, h⟩ | ⟨-, h⟩ := startDelay_cases g len s
  · rw [h]; rfl
  · rw [h]

/-- An instruction that starts a delay of `len` cycles takes exactly that many. -/
theorem exec_takes_delay {i : Instr} {g : GtaOp} {len : Nat} {s : State} (hexec : exec i s = .next (startDelay g len s))
    (hlen : 0 < len) (hd : s.dcnt = 0) (hg : s.gop = .none) :
    ∃ t, exec i s = .next t ∧
      (∀ k < len, (gtaNoRequest^[k] t).gtaRsp = if k + 1 = len then .ok else .quiet) ∧
      (∀ k < len, (gtaNoRequest^[k] t).dcnt = len - 1 - k) ∧
      (gtaNoRequest^[len - 1] t).gop = .none ∧
      t = { s with gtaRsp := t.gtaRsp, dcnt := t.dcnt, gop := t.gop } := by
  have hcycle {k : Nat} := (afterDelayCycle_startDelay g len hd hg).iterate (k := k)
  have hlast : (gtaNoRequest^[len - 1] (startDelay g len s)).gop = .none :=
    (hcycle (by omega)).gop.trans (if_pos (by omega))
  exact ⟨_, hexec, fun _ hk => (hcycle hk).rsp, fun _ hk => (hcycle hk).dcnt, hlast, startDelay_frame g len s⟩

/-- A request's word, OP at the top and ARG below it (R93). -/
theorem reqWord_eq_or (op : BitVec 3) (n : BitVec 16) : reqWord op n = reqWord op 0 ||| n.setWidth 19 := by
  apply BitVec.eq_of_getLsbD_eq
  intro k hk
  simp only [reqWord, BitVec.getLsbD_or, BitVec.getLsbD_append, BitVec.getLsbD_setWidth]
  by_cases h16 : k < 16
  · simp [h16, hk]
  · simp [h16, BitVec.getLsbD_of_ge n k (by omega)]

/-- Settles O25: the counter is loaded with the length less one, and every later cycle takes one from it. -/
theorem delayUsTakesExactlyItsLength : Obligations.DelayUsTakesExactlyItsLength := by
  intro n s hn hC hd hg
  have hpos : 0 < s.cfg.usCycles n := Nat.mul_pos (by bv_omega) hC
  exact ⟨congrArg PortWord.gtaReq (reqWord_eq_or 5 n), exec_takes_delay (if_neg hn) hpos hd hg⟩

/-- Settles O26: as O25, with a thousand times the length. -/
theorem delayMsTakesExactlyItsLength : Obligations.DelayMsTakesExactlyItsLength := by
  intro n s hn hC hd hg
  have hpos : 0 < s.cfg.msCycles n := Nat.mul_pos (Nat.mul_pos (by bv_omega) (by decide)) hC
  exact ⟨congrArg PortWord.gtaReq (reqWord_eq_or 6 n), exec_takes_delay (if_neg hn) hpos hd hg⟩

end Sys2Proof.Machine
end

section
/-! PROOFS. The synchroniser as a delay line; O30. -/

namespace Sys2Proof.Machine

/-- What a step with `rst` = 0 leaves of the parameters, the synchroniser and the inputs: it shifts the one and uses up
a cycle of the others (R35). -/
theorem step_frame_of_rst_low {s t : State} (h : step s = .next t) (hrst : s.hostIn.rst = false) : t =
    { t with cfg := s.cfg, sync := s.syncNext, hostQ := s.hostQ.drop 1, envQ := s.envQ.drop 1,
             drawIx := s.drawIx + 1 } := by
  obtain ⟨hr, -⟩ | ⟨-, -, v, op, u, hop, hu, rfl⟩ | ⟨-, -, v, rfl | ⟨f, rfl⟩⟩ := step_cases h
  · simp [hrst] at hr
  · rw [runOp_frame (s := driveData v s) hop hu]
    rfl
  · rw [gtaNoRequest_frame]
    rfl
  · rw [gtaNoRequest_frame]
    rfl

/-- A shift puts the line into stage 0. -/
theorem syncNext_getD_zero {s : State} (h : 0 < s.cfg.syncStages) : s.syncNext.getD 0 false = s.line := by
  simp [State.syncNext, h]

/-- A shift moves a stage's level to the stage after it. -/
theorem syncNext_getD_succ {s : State} {i : Nat} (h : i + 1 < s.cfg.syncStages) :
    s.syncNext.getD (i + 1) false = s.sync.getD i false := by
  simp [State.syncNext, h]

/-- The coming cycle has no reset if none of the inputs that wait has one; past their end there is none. -/
theorem hostIn_rst_of_take {n : Nat} {s : State} (h : ∀ x ∈ s.hostQ.take (n + 1), x.rst = false) :
    s.hostIn.rst = false := by
  unfold State.hostIn
  cases hq : s.hostQ with
  | nil => rfl
  | cons x q => exact h x (by simp [hq])

/-- A cycle without reset among n + 1 of them: the shift, and the inputs of the n cycles after it. -/
theorem step_sync {n : Nat} {s u : State} (hu : step s = .next u) (hrst : ∀ x ∈ s.hostQ.take (n + 1), x.rst = false) :
    u.cfg = s.cfg ∧ u.sync = s.syncNext ∧ ∀ x ∈ u.hostQ.take n, x.rst = false := by
  rw [step_frame_of_rst_low hu (hostIn_rst_of_take hrst)]
  refine ⟨rfl, rfl, fun x hx => hrst x ?_⟩
  have hx : x ∈ (s.hostQ.drop 1).take n := hx
  rw [List.take_drop, Nat.add_comm] at hx
  exact List.mem_of_mem_drop hx

/-- n cycles without reset move a level n stages on. -/
theorem runFor_sync {n i : Nat} {s t : State} (h : runFor n s = .next t)
    (hrst : ∀ x ∈ s.hostQ.take n, x.rst = false) (hi : i + n < s.cfg.syncStages) :
    t.cfg = s.cfg ∧ t.sync.getD (i + n) false = s.sync.getD i false := by
  induction n generalizing s i with
  | zero => cases h; exact ⟨rfl, rfl⟩
  | succ n ih =>
    obtain ⟨u, hu, ht⟩ := andThen_eq_next h
    obtain ⟨hcfg, hsync, hrst'⟩ := step_sync hu hrst
    obtain ⟨hcfg', hlevel⟩ := ih ht hrst' (i := i + 1) (by rw [hcfg]; omega)
    refine ⟨hcfg'.trans hcfg, ?_⟩
    calc t.sync.getD (i + (n + 1)) false = u.sync.getD (i + 1) false := by rw [← hlevel, Nat.add_right_comm]; rfl
      _ = s.sync.getD i false := by rw [hsync, syncNext_getD_succ (by omega)]

/-- Settles O30: the first of the S cycles takes the line into stage 0, and the others move it to the last stage, which
is the one the engine sees. -/
theorem seenIsTheLineSCyclesAgo : Obligations.SeenIsTheLineSCyclesAgo := by
  intro s t _ hrst h
  cases hS : s.cfg.syncStages with
  | zero =>
    rw [hS] at h
    cases h
    exact if_pos hS
  | succ m =>
    rw [hS] at h hrst
    obtain ⟨u, hu, ht⟩ := andThen_eq_next h
    obtain ⟨hcfg, hsync, hrst'⟩ := step_sync hu hrst
    obtain ⟨hcfg', hlevel⟩ := runFor_sync ht hrst' (i := 0) (by rw [hcfg]; omega)
    have hS' : t.cfg.syncStages = m + 1 := by rw [hcfg', hcfg, hS]
    calc t.seen = t.sync.getD (0 + m) false := by rw [State.seen, hS', if_neg (Nat.succ_ne_zero m), Nat.zero_add]; rfl
      _ = u.sync.getD 0 false := hlevel
      _ = s.line := by rw [hsync, syncNext_getD_zero (by omega)]

end Sys2Proof.Machine
end

section
/-! PROOFS. Nothing but the issue cycle of a pin primitive reads the pin fault: the host's port, the delays and the
engine commute with a change of the draws that wait; O28. -/

namespace Sys2Proof.Machine

/-- The state with other draws waiting. -/
def withDraws (e : List EnvDraw) (s : State) : State := { s with envQ := e }

/-- The same of an outcome. -/
def mapDraws (e : List EnvDraw) (o : Res) : Res := andThen o fun t => .next (withDraws e t)

/-- The word asks for no pin primitive: OP is 0 or a delay's (R93). OP = 7 is refused in any case (R133). -/
abbrev NoPinPrimitive (w : ReqWord) : Prop := reqOp w = 0 ∨ 5 ≤ (reqOp w).toNat

section
variable (e : List EnvDraw)

@[simp] theorem withDraws_st (s : State) : (withDraws e s).st = s.st := rfl
@[simp] theorem withDraws_stepIx (s : State) : (withDraws e s).stepIx = s.stepIx := rfl
@[simp] theorem withDraws_busy (s : State) : (withDraws e s).busy = s.busy := rfl
@[simp] theorem withDraws_op (s : State) : (withDraws e s).op = s.op := rfl
@[simp] theorem withDraws_dcnt (s : State) : (withDraws e s).dcnt = s.dcnt := rfl
@[simp] theorem withDraws_request (s : State) : (withDraws e s).request = s.request := rfl
@[simp] theorem withDraws_hostIn (s : State) : (withDraws e s).hostIn = s.hostIn := rfl

/-- A test that does not look at the draws may be made before or after setting them. -/
theorem ite_withDraws {p : Prop} [Decidable p] {s t s' t' : State} (hs : s' = withDraws e s)
    (ht : t' = withDraws e t) : (if p then s' else t') = withDraws e (if p then s else t) := by
  split <;> assumption

/-! ### The host's port -/

theorem requestStart_withDraws (f : Family) (s : State) :
    requestStart f (withDraws e s) = withDraws e (requestStart f s) :=
  ite_withDraws e rfl rfl

theorem exec_host_withDraws {i : Instr} (hi : i.isPrimitive = false) (s : State) :
    exec i (withDraws e s) = mapDraws e (exec i s) := by
  cases i with
  | readDht11 => exact congrArg (fun t => Host.Outcome.next (driveData 0 t)) (requestStart_withDraws e .dht11 s)
  | readDht22 => exact congrArg (fun t => Host.Outcome.next (driveData 0 t)) (requestStart_withDraws e .dht22 s)
  | nop _ | rdStatus _ | rdData0 _ | rdData1 _ | rdData2 _ | rdData3 _ | rdPinerr _ | rdState _ | rdPos _
  | rdBitcnt _ => rfl
  | setLow | setHigh | isLow | isHigh | delayUs _ | delayMs _ => cases hi

theorem hostPort_withDraws (s : State) : hostPort (withDraws e s) = mapDraws e (hostPort s) := by
  unfold hostPort
  rw [withDraws_hostIn]
  split
  · rfl
  · split
    · rename_i hd
      exact exec_host_withDraws e (decodeHostBus_not_primitive hd) s
    · rfl
    · rename_i hd
      simp only [memWrite_of_ne_zero _ _ (busAddr_of_readOnlyWrite hd)]
      rfl
    · rfl
    · rfl

/-! ### The GTA, but for its pin primitives -/

theorem startDelay_withDraws (g : GtaOp) (len : Nat) (s : State) :
    startDelay g len (withDraws e s) = withDraws e (startDelay g len s) :=
  ite_withDraws e rfl rfl

theorem gtaNoRequest_withDraws (s : State) : gtaNoRequest (withDraws e s) = withDraws e (gtaNoRequest s) :=
  ite_withDraws e rfl (ite_withDraws e rfl rfl)

/-- A word that names no pin primitive is a delay's, if it is a primitive's at all (R97). -/
theorem delay_of_decodeGtaReq {w : ReqWord} {i : Instr} (hw : NoPinPrimitive w)
    (h : decodeGtaReq w = .instr i) : ∃ n, i = .delayUs n ∨ i = .delayMs n := by
  obtain ⟨r, hr, hacc, rfl⟩ := decodeGtaReq_row h
  rw [NoPinPrimitive, reqOp_of_accepts hr hacc] at hw
  simp only [gtaRows, List.mem_cons, List.not_mem_nil, or_false] at hr
  rcases hr with rfl | rfl | rfl | rfl | rfl | rfl
  case inr.inr.inr.inr.inl => exact ⟨_, .inl rfl⟩
  case inr.inr.inr.inr.inr => exact ⟨_, .inr rfl⟩
  all_goals exact absurd hw (by decide)

theorem issue_withDraws {w : ReqWord} (hw : NoPinPrimitive w) (s : State) :
    issue w (withDraws e s) = mapDraws e (issue w s) := by
  unfold issue
  split
  · rename_i i hi
    obtain ⟨n, rfl | rfl⟩ := delay_of_decodeGtaReq hw hi
    · simp only [exec, execDelayUs]
      split
      · rfl
      · exact congrArg Host.Outcome.next (startDelay_withDraws e .delayUs _ (presentRequest w s))
    · simp only [exec, execDelayMs]
      split
      · rfl
      · exact congrArg Host.Outcome.next (startDelay_withDraws e .delayMs _ (presentRequest w s))
  · exact congrArg Host.Outcome.next (gtaNoRequest_withDraws e s)
  · rfl

/-! ### The engine -/

theorem advance_withDraws (s : State) : advance (withDraws e s) = withDraws e (advance s) := by
  simp only [advance, withDraws_st, withDraws_stepIx]
  split
  case h_4 => exact ite_withDraws e rfl rfl
  all_goals rfl

theorem validate_withDraws (s : State) : validate (withDraws e s) = withDraws e (validate s) :=
  ite_withDraws e rfl rfl

theorem engineReact_withDraws (op : EngOp) (s : State) :
    engineReact op (withDraws e s) = withDraws e (engineReact op s) := by
  cases op with
  | setLow | setHigh => exact ite_withDraws e rfl (ite_withDraws e rfl (advance_withDraws e s))
  | sample => exact ite_withDraws e rfl (ite_withDraws e rfl (advance_withDraws e { s with b := s.gtaRsp.val }))
  | wait level =>
    have hpoll : endOfPoll (withDraws e s) = withDraws e (endOfPoll s) := ite_withDraws e rfl rfl
    have hsample : afterSample (withDraws e s) = withDraws e (afterSample s) :=
      ite_withDraws e rfl (ite_withDraws e (advance_withDraws e { s with iter := 0, wph := false }) rfl)
    exact ite_withDraws e rfl (ite_withDraws e hpoll hsample)
  | resetLow | release | sampleDelay => exact ite_withDraws e rfl (advance_withDraws e s)
  | transit | validate => exact ite_withDraws e rfl rfl

theorem runOp_withDraws {s : State} (hw : NoPinPrimitive s.request) (op : EngOp) :
    runOp op (withDraws e s) = mapDraws e (runOp op s) := by
  by_cases ht : op = .transit
  · subst ht
    exact congrArg Host.Outcome.next ((congrArg advance (gtaNoRequest_withDraws e s)).trans (advance_withDraws e _))
  by_cases hv : op = .validate
  · subst hv
    exact congrArg Host.Outcome.next ((congrArg validate (gtaNoRequest_withDraws e s)).trans (validate_withDraws e _))
  rw [runOp_gta _ ht hv, runOp_gta _ ht hv, withDraws_dcnt, withDraws_request, issue_withDraws e hw,
    gtaNoRequest_withDraws, engineReact_withDraws]
  split
  · cases issue s.request s with
    | next t => exact congrArg Host.Outcome.next (engineReact_withDraws e op t)
    | fault _ | refused _ => rfl
  · rfl

theorem engineAfterHost_withDraws {s0 s : State} (hw : s0.busy = true → NoPinPrimitive s.request) :
    engineAfterHost (withDraws e s0) (withDraws e s) = mapDraws e (engineAfterHost s0 s) := by
  unfold engineAfterHost engineCycle
  simp only [withDraws_busy, withDraws_op, gtaNoRequest_withDraws]
  split
  · rename_i hb
    split
    · split
      · exact runOp_withDraws e (hw hb) _
      · rfl
    · rfl
  · rfl

/-! ### The cycle -/

/-- In a cycle with `rst` = 0 and no pin primitive, the draws have a part in its end only. -/
theorem step_withDraws {s : State} (hrst : s.hostIn.rst = false) (hw : NoPinPrimitive s.request) :
    step (withDraws e s) = andThen (hostPort s) fun s1 => andThen (engineAfterHost s s1) fun s2 =>
        .next (endCycle (withDraws e s) (withDraws e s2)) := by
  rw [step_of_rst_low (s := withDraws e s) hrst, hostPort_withDraws]
  cases hport : hostPort s with
  | fault _ | refused _ => rfl
  | next s1 =>
    have hw1 (hb : s.busy = true) : NoPinPrimitive s1.request := by
      obtain ⟨v, rfl | ⟨hfree, -⟩⟩ := hostPort_cases hport
      · exact hw
      · simp [hb] at hfree
    simp only [mapDraws, andThen_next]
    rw [engineAfterHost_withDraws e hw1]
    cases engineAfterHost s s1 <;> rfl

end

/-- Settles O28: the end of a cycle takes the drawn line into the synchroniser and uses the draw up, and so does a reset
cycle; neither looks at the fault. -/
theorem pinFaultSampledInIssueCyclesOnly : Obligations.PinFaultSampledInIssueCyclesOnly := by
  intro s l f f' k k' q hw
  cases hrst : s.hostIn.rst with
  | true =>
    have hreset (d : EnvDraw) : step { s with envQ := d :: q } = resetCycle { s with envQ := d :: q } := if_pos hrst
    rw [hreset, hreset]
    rfl
  | false =>
    calc step { s with envQ := ⟨l, f, k⟩ :: q } = _ := step_withDraws (⟨l, f, k⟩ :: q) hrst hw
      _ = step { s with envQ := ⟨l, f', k'⟩ :: q } := (step_withDraws (⟨l, f', k'⟩ :: q) hrst hw).symm

end Sys2Proof.Machine
end

section
/-! PROOFS. The engine's cycle, operation by operation: what the issue cycle of a pin primitive makes of the whole state,
and the positions that take one cycle; O32 and O36 to O38. -/

namespace Sys2Proof.Machine

/-- What the GTA does for an operation that uses the pin, in the issue cycle (R124-R127). -/
def pinIssue (op : EngOp) (s : State) : State :=
  match op with
  | .setLow => pinWrite true s
  | .setHigh => pinWrite false s
  | .sample => pinQuery true s
  | .wait level => pinQuery level s
  | .resetLow | .release | .transit | .sampleDelay | .validate => s

/-- The GTA has answered the request of the coming cycle, in the cycle that issues it. -/
def answered (r : GtaRsp) (s : State) : State := respond r (presentRequest s.request s)

/-! ### The pin primitives -/

section
variable {s : State} {op : EngOp}

/-- The issue cycle of an operation that uses the pin: the GTA's part, then the engine's reaction (R123). -/
theorem engineCycle_of_pin (hop : s.op = some op) (hd : s.dcnt = 0) (hpin : op.usesPin = true)
    (hw : op.isWait = true → s.wph = false) :
    engineCycle s = .next (engineReact op (pinIssue op (presentRequest s.request s))) := by
  cases op with
  | setLow | setHigh | sample => exact engineCycle_of_request hd hop rfl
  | wait level =>
    have hwph : ¬ s.wph = true := by simp [hw rfl]
    cases level <;> exact engineCycle_of_request hd hop (if_neg hwph)
  | resetLow | release | transit | sampleDelay | validate => cases hpin

/-- The answer of a wait's sample is taken by afterSample (R161). -/
theorem engineReact_of_waitSample {t : State} {level : Bool} (hw : t.wph = false) (hdone : t.gtaRsp.done = true) :
    engineReact (.wait level) t = afterSample t := by
  rw [engineReact_of_done hdone]
  exact if_neg (by simp [hw])

/-- A pin fault in the issue cycle fails the exchange, whatever the primitive is (R272, R278). -/
theorem engineCycle_of_pinFault (hop : s.op = some op) (hd : s.dcnt = 0) (hpin : op.usesPin = true)
    (hw : op.isWait = true → s.wph = false) (hf : s.draw.pinFault = true) : engineCycle s =
      .next (failExchange (.pinFault s.draw.pinFaultCode) (answered (.error s.draw.pinFaultCode) s)) := by
  have hwrite (low : Bool) := pinWrite_of_fault (s := presentRequest s.request s) low hf
  have hquery (level : Bool) := pinQuery_of_fault (s := presentRequest s.request s) level hf
  rw [engineCycle_of_pin hop hd hpin hw]
  cases op with
  | setLow | setHigh => rw [pinIssue, hwrite]; rfl
  | sample => rw [pinIssue, hquery]; rfl
  | wait level =>
    rw [pinIssue, hquery, engineReact_of_waitSample]
    · rfl
    · exact hw rfl
    · rfl
  | resetLow | release | transit | sampleDelay | validate => cases hpin

/-- A pad write without a fault (R166, R168). -/
theorem engineCycle_of_padWrite {low : Bool} (hop : s.op = some op) (hd : s.dcnt = 0) (hf : s.draw.pinFault = false)
    (hpad : op = .setLow ∧ low = true ∨ op = .setHigh ∧ low = false) :
    engineCycle s = .next (advance (drivePad low (answered .ok s))) := by
  obtain ⟨rfl, rfl⟩ | ⟨rfl, rfl⟩ := hpad <;>
    rw [engineCycle_of_pin hop hd rfl nofun, pinIssue, pinWrite_of_noFault (s := presentRequest s.request s) _ hf] <;>
    rfl

/-- A bit's sample without a fault (R178). -/
theorem engineCycle_of_sample (hop : s.op = some .sample) (hd : s.dcnt = 0) (hf : s.draw.pinFault = false) :
    engineCycle s = .next (advance { answered (.answer s.seen) s with b := s.seen }) := by
  rw [engineCycle_of_pin hop hd rfl nofun, pinIssue, pinQuery_of_noFault (s := presentRequest s.request s) _ hf,
    beq_true]
  rfl

variable {level : Bool}

/-- A wait's sample without a fault (R161). -/
theorem engineCycle_of_waitSample (hop : s.op = some (.wait level)) (hd : s.dcnt = 0) (hw : s.wph = false)
    (hf : s.draw.pinFault = false) :
    engineCycle s = .next (afterSample (answered (.answer (s.seen == level)) s)) := by
  rw [engineCycle_of_pin hop hd rfl fun _ => hw, pinIssue,
    pinQuery_of_noFault (s := presentRequest s.request s) _ hf, engineReact_of_waitSample]
  · rfl
  · exact hw
  · rfl

/-- A wait's sample that matches completes the wait (R161). -/
theorem engineCycle_of_match (hop : s.op = some (.wait level)) (hd : s.dcnt = 0) (hw : s.wph = false)
    (hf : s.draw.pinFault = false) (hseen : s.seen = level) :
    engineCycle s = .next (advance { answered (.answer true) s with iter := 0, wph := false }) := by
  rw [engineCycle_of_waitSample hop hd hw hf, hseen, beq_self_eq_true]
  rfl

/-- A wait's sample that does not match is followed by the polling delay (R161). -/
theorem engineCycle_of_noMatch (hop : s.op = some (.wait level)) (hd : s.dcnt = 0) (hw : s.wph = false)
    (hf : s.draw.pinFault = false) (hseen : s.seen ≠ level) :
    engineCycle s = .next { answered (.answer false) s with wph := true } := by
  rw [engineCycle_of_waitSample hop hd hw hf, beq_eq_false_iff_ne.mpr hseen]
  rfl

/-! ### Positions -/

theorem engineCycle_of_op (hop : s.op = some op) : engineCycle s = runOp op s := by
  simp only [engineCycle, busy_of_op hop, if_true, hop]

/-- The position names the operation (R22). -/
theorem op_of_position {t : State} (hst : t.st = s.st) (hix : t.stepIx = s.stepIx) : t.op = s.op := by
  rw [State.op, hst, hix, State.op]

/-- What is neither a wait nor the end of a state is followed by the next step (R160). -/
theorem advance_of_noWait (hop : s.op = some op) (hw : op.isWait = false) (ht : op ≠ .transit) (hv : op ≠ .validate) :
    advance s = nextStep s := by
  obtain ⟨-, -, rfl, -⟩ | ⟨-, -, rfl, -⟩ | ⟨-, -, rfl, -⟩ | ⟨-, -, rfl, -⟩ | ⟨-, heq⟩ := advance_cases hop hv
  · cases hw
  · cases hw
  · exact absurd rfl ht
  · cases hw
  · exact heq

end

/-! ### The positions that take one cycle, without a host access -/

/-- Settles O32: a pad write answers in its issue cycle, and the position is the next step's unless a fault is drawn. -/
theorem resetPulsePadSteps : Obligations.ResetPulsePadSteps := by
  rintro s ix low w hpulse hin hst rfl hd
  obtain ⟨op, hop, hpad, hreq⟩ : ∃ op, s.op = some op ∧
      (op = .setLow ∧ low = true ∨ op = .setHigh ∧ low = false) ∧ s.request = w := by
    obtain ⟨hix, rfl, rfl⟩ | ⟨hix, rfl, rfl⟩ := hpulse
    · have hop : s.op = some .setLow := by simp [State.op, opAt, hst, hix]
      exact ⟨_, hop, .inl ⟨rfl, rfl⟩, request_of_op (busy_of_op hop) hd hop rfl⟩
    · have hop : s.op = some .setHigh := by simp [State.op, opAt, hst, hix]
      exact ⟨_, hop, .inr ⟨rfl, rfl⟩, request_of_op (busy_of_op hop) hd hop rfl⟩
  obtain ⟨hpin, hwait, hnext⟩ : op.usesPin = true ∧ op.isWait = false ∧
      ∀ t : State, t.st = s.st → t.stepIx = s.stepIx → advance t = { t with stepIx := t.stepIx + 1 } := by
    obtain ⟨rfl, -⟩ | ⟨rfl, -⟩ := hpad <;>
      exact ⟨rfl, rfl, fun t ht htix => advance_of_noWait ((op_of_position ht htix).trans hop) rfl nofun nofun⟩
  have hreq : (driveData 0 s).request = w := hreq
  rw [step_of_hostIn_quiet hin (busy_of_op hop)]
  constructor
  · intro hf
    rw [engineCycle_of_padWrite (s := driveData 0 s) hop hd hf hpad, hnext, drivePad, answered, hreq]
    all_goals rfl
  · intro hf
    rw [engineCycle_of_pinFault (s := driveData 0 s) hop hd hpin (by simp [hwait]) hf, answered, hreq]
    rfl

/-- Settles O36: the transit asks for no primitive, and with no delay running the GTA idles. -/
theorem ackTransitTakesOneCycle : Obligations.AckTransitTakesOneCycle := by
  intro s hin hst hix hd
  have hop : s.op = some .transit := by simp [State.op, opAt, hst, hix]
  have hgta : gtaNoRequest (driveData 0 s) = { driveData 0 s with gtaReq := 0, gtaRsp := .quiet } := if_pos hd
  have hadv (t : State) (ht : t.st = .ackWait2) : advance t = enter .bitLoop t := by simp only [advance, ht]
  rw [step_of_hostIn_quiet hin (busy_of_op hop), engineCycle_of_op (s := driveData 0 s) hop, runOp, andThen_next,
    hgta, hadv]
  · rfl
  · exact hst

/-- Settles O37: the sample answers in its issue cycle, with the level seen or with the fault. -/
theorem bitSampleWritesB : Obligations.BitSampleWritesB := by
  intro s hin hst hix hd
  have hop : s.op = some .sample := by simp [State.op, opAt, hst, hix]
  have hreq : (driveData 0 s).request = 0x40000 := request_of_op (busy_of_op hop) hd hop rfl
  rw [step_of_hostIn_quiet hin (busy_of_op hop)]
  constructor
  · intro hf
    have hnext (t : State) (ht : t.st = s.st) (htix : t.stepIx = s.stepIx) :
        advance t = { t with stepIx := t.stepIx + 1 } :=
      advance_of_noWait ((op_of_position ht htix).trans hop) rfl nofun nofun
    have hix' : (3 : BitVec 3) = s.stepIx + 1 := by rw [hix]; rfl
    rw [engineCycle_of_sample (s := driveData 0 s) hop hd hf, hnext, hix', answered, hreq]
    all_goals rfl
  · intro hf
    rw [engineCycle_of_pinFault (s := driveData 0 s) hop hd rfl nofun hf, answered, hreq]
    rfl

/-- Settles O38: the sample that matches commits the bit in its own cycle. -/
theorem closingWaitCommitsTheBit : Obligations.ClosingWaitCommitsTheBit := by
  intro s hin hst hix hw hd hf hseen
  have hop : s.op = some (.wait false) := by simp [State.op, opAt, hst, hix]
  have hreq : (driveData 0 s).request = 0x30000 := request_of_op (busy_of_op hop) hd hop (if_neg (by simp [hw]))
  have hadv (t : State) (ht : t.st = .bitLoop) (htix : t.stepIx = 3) : advance t = commitBit t := by
    simp [advance, ht, htix]
  rw [step_of_hostIn_quiet hin (busy_of_op hop),
    engineCycle_of_match (s := driveData 0 s) hop hd hw hf hseen, hadv, answered, hreq]
  · obtain ⟨hlast, heq⟩ | ⟨hmore, heq⟩ := commitBit_cases { respond (.answer true)
      (presentRequest 0x30000 (driveData 0 s)) with iter := 0, wph := false }
    · rw [heq, if_pos (by exact hlast), hw]
      rfl
    · rw [heq, if_neg (by exact hmore), hw]
      rfl
  · exact hst
  · exact hix

end Sys2Proof.Machine
end

section
/-! PROOFS. One cycle of an operation as a function of the exchange: under the invariant, and whatever the host reads
beside it, what the operation is and how it stands decide the exchange after the cycle. -/

namespace Sys2Proof.Machine

/-! ### The exchange -/

/-- What a cycle leaves of the exchange and of the GTA's counter, once the ports, the inputs and what follows from the
rest under the invariant (`ph` and `gop`) are erased. -/
def State.exchange (s : State) : State :=
  { s with ph := .idle, sync := [], gop := .none, busRdata := 0, gtaReq := 0, gtaRsp := .quiet, hostQ := [], envQ := []
           drawIx := 0 }

/-- The next state of the coming cycle has the exchange of x. -/
def GoesTo (s x : State) : Prop := ∃ t, step s = .next t ∧ t.exchange = x.exchange

/-- With no delay running, a cycle without a request leaves the exchange alone (R132). -/
theorem exchange_gtaNoRequest {s : State} (v : Byte) (hd : s.dcnt = 0) :
    (gtaNoRequest (driveData v s)).exchange = s.exchange := by
  rw [gtaNoRequest, if_pos (by exact hd)]
  rfl

theorem exchange_commitBit (s : State) : (commitBit s).exchange = commitBit s.exchange := by
  unfold commitBit
  split
  · exact (if_pos ‹_›).symm
  · exact (if_neg ‹_›).symm

theorem exchange_advance (s : State) : (advance s).exchange = advance s.exchange := by
  have hst : s.exchange.st = s.st := rfl
  have hix : s.exchange.stepIx = s.stepIx := rfl
  unfold advance
  rw [hst, hix]
  split
  case h_4 => exact exchange_commitBit s
  all_goals rfl

theorem exchange_validate (s : State) : (validate s).exchange = validate s.exchange := by
  unfold validate
  split
  · exact (if_pos ‹_›).symm
  · exact (if_neg ‹_›).symm

theorem exchange_endOfPoll (s : State) : (endOfPoll s).exchange = endOfPoll s.exchange := by
  unfold endOfPoll
  split
  · exact (if_pos ‹_›).symm
  · exact (if_neg ‹_›).symm

/-- What moves the exchange on depends on the exchange alone. -/
theorem exchange_congr {f : State → State} (hf : ∀ s, (f s).exchange = f s.exchange) {s t : State}
    (h : t.exchange = s.exchange) : (f t).exchange = (f s).exchange := by
  rw [hf, hf, h]

/-- The fields of the exchange, read off. -/
theorem fields_of_exchange {s t : State} (h : t.exchange = s.exchange) : t.cfg = s.cfg ∧ t.st = s.st ∧
    t.stepIx = s.stepIx ∧ t.iter = s.iter ∧ t.wph = s.wph ∧ t.bitcnt = s.bitcnt ∧ t.sr = s.sr ∧ t.fam = s.fam ∧
    t.padLow = s.padLow ∧ t.dcnt = s.dcnt := by
  simp only [State.exchange, State.mk.injEq] at h
  tauto

/-! ### Delays -/

/-- The cycles a delay of `len` cycles still takes, the coming one among them. -/
def State.delayLeft (s : State) (len : Nat) : Nat := if s.dcnt = 0 then len else s.dcnt

theorem exec_delayUs {n : BitVec 16} {s : State} (h : 0 < s.cfg.usCycles n) :
    exec (.delayUs n) s = .next (startDelay .delayUs (s.cfg.usCycles n) s) :=
  if_neg (by rintro rfl; simp [Config.usCycles] at h)

theorem exec_delayMs {n : BitVec 16} {s : State} (h : 0 < s.cfg.msCycles n) :
    exec (.delayMs n) s = .next (startDelay .delayMs (s.cfg.msCycles n) s) :=
  if_neg (by rintro rfl; simp [Config.msCycles] at h)

section
variable {s : State} {op : EngOp} {g : GtaOp} {len : Nat}

/-- An operation that waits for a delay requests it, and the GTA starts it (R123). -/
theorem engineCycle_of_delayIssue (hop : s.op = some op) (hd : s.dcnt = 0) (hdelay : delayOf op s = some (g, len))
    (hlen : 0 < len) :
    engineCycle s = .next (engineReact op (startDelay g len (presentRequest s.request s))) := by
  have issued {i : Instr} (hi : requestOf op s = some i)
      (hexec : exec i (presentRequest s.request s) = .next (startDelay g len (presentRequest s.request s))) :
      engineCycle s = .next (engineReact op (startDelay g len (presentRequest s.request s))) := by
    rw [engineCycle_of_request hd hop hi, hexec, andThen_next]
  cases op with
  | resetLow => cases hdelay; exact issued rfl (exec_delayMs hlen)
  | release | sampleDelay => cases hdelay; exact issued rfl (exec_delayUs hlen)
  | wait level =>
    simp only [delayOf] at hdelay
    split at hdelay
    · rename_i hw
      cases hdelay
      exact issued (if_pos hw) (exec_delayUs hlen)
    · cases hdelay
  | setLow | setHigh | sample | transit | validate => cases hdelay

/-- While a delay runs there is no request, and the operation waits for the GTA (R123). -/
theorem engineCycle_of_running (hop : s.op = some op) (hd : s.dcnt ≠ 0) (hdelay : delayOf op s = some (g, len)) :
    engineCycle s = .next (engineReact op (gtaNoRequest s)) := by
  have ht : op ≠ .transit := by rintro rfl; cases hdelay
  have hv : op ≠ .validate := by rintro rfl; cases hdelay
  rw [engineCycle_of_op hop, runOp_gta s ht hv, if_neg hd]

/-- The delay that runs is the one the operation waits for (R37). -/
theorem State.Inv.gop_of_running (h : s.Inv) (hop : s.op = some op) (hd : s.dcnt ≠ 0)
    (hdelay : delayOf op s = some (g, len)) : s.gop = g := by
  obtain ⟨-, op', len', hop', hdelay', -⟩ := h.gtaDelay hd
  obtain rfl : op = op' := by simpa [hop] using hop'
  have hgl : (s.gop, len') = (g, len) := by simpa [hdelay] using hdelay'.symm
  exact congrArg Prod.fst hgl

/-- A delay that has more than the coming cycle left goes on. -/
theorem engineCycle_of_delayGoesOn (h : s.Inv) (hop : s.op = some op) (hdelay : delayOf op s = some (g, len))
    (hleft : 1 < s.delayLeft len) : ∃ q, engineCycle s =
      .next { s with gtaReq := q, gtaRsp := .quiet, dcnt := s.delayLeft len - 1, gop := g } := by
  unfold State.delayLeft at hleft ⊢
  by_cases hd : s.dcnt = 0
  · rw [if_pos hd] at hleft ⊢
    obtain ⟨h1, -⟩ | ⟨-, heq⟩ := startDelay_cases g len (presentRequest s.request s)
    · omega
    · rw [engineCycle_of_delayIssue hop hd hdelay (by omega), heq, engineReact_of_notDone rfl]
      exact ⟨_, rfl⟩
  · rw [if_neg hd] at hleft ⊢
    obtain ⟨h0, -⟩ | ⟨h1, -⟩ | ⟨-, heq⟩ := gtaNoRequest_cases s
    · omega
    · omega
    · rw [engineCycle_of_running hop hd hdelay, heq, engineReact_of_notDone rfl, ← h.gop_of_running hop hd hdelay]
      exact ⟨_, rfl⟩

/-- In its last cycle a delay answers DONE, and the engine reacts. -/
theorem engineCycle_of_delayDone (h : s.Inv) (hop : s.op = some op) (hdelay : delayOf op s = some (g, len))
    (hleft : s.delayLeft len = 1) : ∃ q, engineCycle s = .next (engineReact op (gtaRest q .ok s)) := by
  unfold State.delayLeft at hleft
  by_cases hd : s.dcnt = 0
  · rw [if_pos hd] at hleft
    refine ⟨s.request, ?_⟩
    rw [engineCycle_of_delayIssue hop hd hdelay (by omega), startDelay, if_pos hleft, h.respond_presentRequest hd]
  · rw [if_neg hd] at hleft
    refine ⟨0, ?_⟩
    rw [engineCycle_of_running hop hd hdelay, gtaNoRequest, if_neg hd, tickDelay, if_pos hleft]
    rfl

theorem delayEnds_iff (hdelay : delayOf op s = some (g, len)) : delayEnds op s ↔ s.delayLeft len = 1 := by
  unfold State.delayLeft
  split
  · exact delayEnds_of_issue hdelay ‹_›
  · exact delayEnds_of_running hdelay ‹_›

end

/-! ### The next state of a plain cycle -/

/-- The engine's cycle beside a host access that stops nothing, on the exchange (R244). -/
theorem goesTo_of_engineCycle {s x : State} (hp : s.hostIn.plain = true) (hb : s.busy = true)
    (hx : ∀ v, ∃ u, engineCycle (driveData v s) = .next u ∧ u.exchange = x.exchange) : GoesTo s x := by
  obtain ⟨v, hstep⟩ := step_of_plain_busy hp hb
  obtain ⟨u, hu, he⟩ := hx v
  rw [hu, andThen_next] at hstep
  exact ⟨_, hstep, he⟩

section
variable {s : State} {op : EngOp}

/-- The bit a completed operation leaves in `b`: a sample writes the level seen (R178). -/
def bitAfter (op : EngOp) (s : State) : Bool := if op = .sample then s.seen else s.b

/-- The exchange at the end of an operation that has completed, before the position moves. -/
def State.done (op : EngOp) (s : State) : State := completed op 0 .quiet (bitAfter op s) s

variable (h : s.Inv) (hp : s.hostIn.plain = true) (hop : s.op = some op)
include h hp hop

theorem goesTo_delay {g : GtaOp} {len : Nat} (hdelay : delayOf op s = some (g, len)) (hleft : 1 < s.delayLeft len) :
    GoesTo s { s with dcnt := s.delayLeft len - 1 } := by
  refine goesTo_of_engineCycle hp (busy_of_op hop) fun v => ?_
  obtain ⟨q, hq⟩ := engineCycle_of_delayGoesOn (s := driveData v s) (h.driveData v) hop hdelay hleft
  exact ⟨_, hq, rfl⟩

/-- The end of a wait's polling delay (R161). -/
theorem goesTo_endOfPoll {level : Bool} (hwait : op = .wait level) (hw : s.wph = true) (hends : delayEnds op s) :
    GoesTo s (endOfPoll { s with dcnt := 0 }) := by
  refine goesTo_of_engineCycle hp (busy_of_op hop) fun v => ?_
  have hdelay : delayOf op s = some (.delayUs, s.cfg.usCycles s.cfg.pollUs) := by subst hwait; exact if_pos hw
  obtain ⟨q, hq⟩ := engineCycle_of_delayDone (s := driveData v s) (h.driveData v) hop hdelay
    ((delayEnds_iff hdelay).mp hends)
  refine ⟨_, hq, ?_⟩
  have hreact (t : State) (ht : t.wph = true) (hdone : t.gtaRsp.done = true) :
      engineReact op t = endOfPoll t := by
    subst hwait
    rw [engineReact_of_done hdone]
    exact if_pos ht
  rw [hreact _ (by exact hw) rfl]
  exact exchange_congr exchange_endOfPoll rfl

/-- A wait's sample that does not match (R161). -/
theorem goesTo_noMatch {level : Bool} (hwait : op = .wait level) (hw : s.wph = false) (hf : s.draw.pinFault = false)
    (hseen : s.seen ≠ level) : GoesTo s { s with wph := true } := by
  subst hwait
  refine goesTo_of_engineCycle hp (busy_of_op hop) fun v => ?_
  have hd := h.dcnt_of_noDelay hop (by simp [delayOf, hw])
  exact ⟨_, engineCycle_of_noMatch (s := driveData v s) hop hd hw hf hseen, rfl⟩

omit h in
/-- A pin fault in an issue cycle (R272). -/
theorem goesTo_pinFault (hpin : op.usesPin = true) (hw : op.isWait = true → s.wph = false) (hd : s.dcnt = 0)
    (hf : s.draw.pinFault = true) : GoesTo s (failExchange (.pinFault s.draw.pinFaultCode) s) := by
  refine goesTo_of_engineCycle hp (busy_of_op hop) fun v => ?_
  exact ⟨_, engineCycle_of_pinFault (s := driveData v s) hop hd hpin hw hf, rfl⟩

/-- VALIDATE (R221). -/
theorem goesTo_validate (hv : op = .validate) : GoesTo s (validate s) := by
  subst hv
  refine goesTo_of_engineCycle hp (busy_of_op hop) fun v => ?_
  refine ⟨_, engineCycle_of_op (s := driveData v s) hop, ?_⟩
  exact exchange_congr exchange_validate (exchange_gtaNoRequest v (h.dcnt_of_noDelay hop rfl))

omit hp in
/-- Outside a wait there is no wait to clear. -/
theorem exchange_done_of_noWait (hw : op.isWait = false) : (s.done op).exchange =
    { s with dcnt := 0, padLow := padAfter op s.padLow, b := bitAfter op s }.exchange := by
  obtain ⟨hiter, hwph⟩ := h.noWait (busy_of_op hop) fun level hl => by
    obtain rfl : op = .wait level := by simpa [hop] using hl
    cases hw
  rw [State.done, completed, ← hiter, ← hwph]
  rfl

/-- An operation that completes leads to the next position (R160). -/
theorem goesTo_advance (hv : op ≠ .validate) (hc : opCompletes op s) : GoesTo s (advance (s.done op)) := by
  refine goesTo_of_engineCycle hp (busy_of_op hop) fun v => ?_
  have hnoWait (hw : op.isWait = false) := exchange_done_of_noWait h hop hw
  have reach {u : State} (hu : engineCycle (driveData v s) = .next (advance u))
      (he : u.exchange = (s.done op).exchange) :
      ∃ u, engineCycle (driveData v s) = .next u ∧ u.exchange = (advance (s.done op)).exchange :=
    ⟨_, hu, exchange_congr exchange_advance he⟩
  cases op with
  | setLow =>
    obtain ⟨hd, hf⟩ := hc
    exact reach (engineCycle_of_padWrite (s := driveData v s) hop hd hf (.inl ⟨rfl, rfl⟩))
      (by rw [hnoWait rfl, ← hd]; rfl)
  | setHigh =>
    obtain ⟨hd, hf⟩ := hc
    exact reach (engineCycle_of_padWrite (s := driveData v s) hop hd hf (.inr ⟨rfl, rfl⟩))
      (by rw [hnoWait rfl, ← hd]; rfl)
  | sample =>
    obtain ⟨hd, hf⟩ := hc
    exact reach (engineCycle_of_sample (s := driveData v s) hop hd hf) (by rw [hnoWait rfl, ← hd]; rfl)
  | resetLow | release | sampleDelay =>
    obtain ⟨g, len, hdelay, -⟩ := id hc
    obtain ⟨q, hq⟩ := engineCycle_of_delayDone (s := driveData v s) (h.driveData v) hop hdelay
      ((delayEnds_iff hdelay).mp hc)
    exact reach (u := gtaRest q .ok (driveData v s)) hq (by rw [hnoWait rfl]; rfl)
  | wait level =>
    obtain ⟨hd, hw, hf, hseen⟩ := hc
    exact reach (engineCycle_of_match (s := driveData v s) hop hd hw hf hseen)
      (by rw [State.done, completed, gtaRest, ← hd]; rfl)
  | transit =>
    have hd := h.dcnt_of_noDelay hop rfl
    exact reach (engineCycle_of_op (s := driveData v s) hop)
      (by rw [hnoWait rfl, ← hd]; exact exchange_gtaNoRequest v hd)
  | validate => exact absurd rfl hv

/-! ### Every cycle -/

/-- What the coming cycle of an operation makes of the exchange, each case with its condition. -/
inductive CycleOutcome (op : EngOp) (s : State) : Prop where
  | delayGoesOn {g : GtaOp} {len : Nat} (hdelay : delayOf op s = some (g, len)) (hleft : 1 < s.delayLeft len)
      (hgo : GoesTo s { s with dcnt := s.delayLeft len - 1 })
  | pollEnds {level : Bool} (hwait : op = .wait level) (hw : s.wph = true) (hends : delayEnds op s)
      (hgo : GoesTo s (endOfPoll { s with dcnt := 0 }))
  | noMatch {level : Bool} (hwait : op = .wait level) (hd : s.dcnt = 0) (hw : s.wph = false) (hseen : s.seen ≠ level)
      (hgo : GoesTo s { s with wph := true })
  | pinFault (hpin : op.usesPin = true) (hw : op.isWait = true → s.wph = false) (hd : s.dcnt = 0)
      (hf : s.draw.pinFault = true) (hgo : GoesTo s (failExchange (.pinFault s.draw.pinFaultCode) s))
  | validates (hv : op = .validate) (hgo : GoesTo s (validate s))
  | completes (hv : op ≠ .validate) (hc : opCompletes op s) (hgo : GoesTo s (advance (s.done op)))

omit hp hop in
theorem delayLeft_pos {g : GtaOp} {len : Nat} (hdelay : delayOf op s = some (g, len)) : 0 < s.delayLeft len := by
  have := h.delay_pos hdelay
  unfold State.delayLeft
  split <;> omega

/-- Under the invariant a plain cycle of an operation goes one of these ways, and so stops nowhere. -/
theorem cycle_cases : CycleOutcome op s := by
  have delay {g : GtaOp} {len : Nat} (hdelay : delayOf op s = some (g, len))
      (hends : delayEnds op s → CycleOutcome op s) : CycleOutcome op s := by
    have hpos := delayLeft_pos h hdelay
    by_cases hleft : s.delayLeft len = 1
    · exact hends ((delayEnds_iff hdelay).mpr hleft)
    · have hleft : 1 < s.delayLeft len := by omega
      exact .delayGoesOn hdelay hleft (goesTo_delay h hp hop hdelay hleft)
  have pin (hpin : op.usesPin = true) (hw : op.isWait = true → s.wph = false) (hd : s.dcnt = 0)
      (hnoFault : s.draw.pinFault = false → CycleOutcome op s) : CycleOutcome op s := by
    cases hf : s.draw.pinFault with
    | true => exact .pinFault hpin hw hd hf (goesTo_pinFault hp hop hpin hw hd hf)
    | false => exact hnoFault hf
  have completes (hv : op ≠ .validate) (hc : opCompletes op s) : CycleOutcome op s :=
    .completes hv hc (goesTo_advance h hp hop hv hc)
  cases op with
  | setLow | setHigh | sample =>
    have hd := h.dcnt_of_noDelay hop rfl
    exact pin rfl nofun hd fun hf => completes nofun ⟨hd, hf⟩
  | resetLow | release | sampleDelay => exact delay rfl fun hends => completes nofun hends
  | transit => exact completes nofun trivial
  | validate => exact .validates rfl (goesTo_validate h hp hop rfl)
  | wait level =>
    cases hw : s.wph with
    | true =>
      exact delay (if_pos hw) fun hends => .pollEnds rfl hw hends (goesTo_endOfPoll h hp hop rfl hw hends)
    | false =>
      have hd := h.dcnt_of_noDelay hop (by simp [delayOf, hw])
      refine pin rfl (fun _ => hw) hd fun hf => ?_
      by_cases hseen : s.seen = level
      · exact completes nofun ⟨hd, hw, hf, hseen⟩
      · exact .noMatch rfl hd hw hseen (goesTo_noMatch h hp hop rfl hw hf hseen)

end

end Sys2Proof.Machine
end

section
/-! PROOFS. R160's transition table, row by row, and DATA across a step; O40 and O49. -/

namespace Sys2Proof.Machine

/-! ### The host's part -/

/-- A step with `rst` = 0 that stops nowhere had a plain host input. -/
theorem plain_of_step {s t : State} (h : step s = .next t) (hrst : s.hostIn.rst = false) : s.hostIn.plain = true := by
  rw [step_of_rst_low hrst] at h
  obtain ⟨u, hu, -⟩ := andThen_eq_next h
  unfold hostPort at hu
  split at hu
  · rename_i ha
    simp [HostIn.plain, hrst, ha]
  · rename_i w ha
    split at hu
    case h_4 => cases hu
    case h_5 => cases hu
    all_goals
      rename_i hd
      simp [HostIn.plain, hrst, ha, hd]

/-- A host instruction drives the bus, and accepts a START only if it is the START of that family (R241-R243). -/
theorem exec_host_start {i : Instr} {s u : State} (hi : i.isPrimitive = false) (h : exec i s = .next u) :
    (∃ v, u = driveData v s) ∨ ∃ f, encode i = .hostBus (startWord f) ∧ u = driveData 0 (acceptStart f s) := by
  cases i with
  | readDht11 =>
    cases h
    unfold requestStart
    split
    · exact .inl ⟨0, rfl⟩
    · exact .inr ⟨.dht11, rfl, rfl⟩
  | readDht22 =>
    cases h
    unfold requestStart
    split
    · exact .inl ⟨0, rfl⟩
    · exact .inr ⟨.dht22, rfl, rfl⟩
  | setLow | setHigh | isLow | isHigh | delayUs _ | delayMs _ => cases hi
  | nop _ | rdStatus _ | rdData0 _ | rdData1 _ | rdData2 _ | rdData3 _ | rdPinerr _ | rdState _ | rdPos _
  | rdBitcnt _ => cases h; exact .inl ⟨_, rfl⟩

/-- The host's port accepts a START only on a START word. -/
theorem hostPort_start {s u : State} (h : hostPort s = .next u) :
    (∃ v, u = driveData v s) ∨
      ∃ f, s.hostIn.access = some (startWord f) ∧ u = driveData 0 (acceptStart f s) := by
  unfold hostPort at h
  split at h
  · cases h
    exact .inl ⟨0, rfl⟩
  · rename_i w ha
    split at h
    · rename_i i hd
      obtain hv | ⟨f, hf, hu⟩ := exec_host_start (decodeHostBus_not_primitive hd) h
      · exact .inl hv
      · have hw : encode i = .hostBus w := encodeOfDecode _ _ (by simp only [decode, hd])
        obtain rfl : startWord f = w := by simpa [hf] using hw
        exact .inr ⟨f, ha, hu⟩
    · cases h
      exact .inl ⟨_, rfl⟩
    · rename_i hd
      cases h
      exact .inl ⟨0, by rw [memWrite_of_ne_zero _ _ (busAddr_of_readOnlyWrite hd)]⟩
    · cases h
    · cases h

/-- A step with `rst` = 0 while the engine is at rest: the position stays, or a START puts it at (RESET, 0). -/
theorem step_of_free {s t : State} (h : step s = .next t) (hrst : s.hostIn.rst = false) (hb : s.busy = false) :
    (∃ v, t = endCycle s (gtaNoRequest (driveData v s))) ∨
      ∃ f, s.hostIn.access = some (startWord f) ∧ t = endCycle s (gtaNoRequest (driveData 0 (acceptStart f s))) := by
  rw [step_of_rst_low hrst] at h
  obtain ⟨u, hu, h⟩ := andThen_eq_next h
  rw [engineAfterHost, hb] at h
  cases h
  obtain ⟨v, rfl⟩ | ⟨f, hf, rfl⟩ := hostPort_start hu
  · exact .inl ⟨v, rfl⟩
  · exact .inr ⟨f, hf, rfl⟩

/-! ### DATA -/

/-- VALIDATE has one position (R22). -/
theorem position_of_validate {s : State} (h : s.op = some .validate) : s.st = .validate ∧ s.stepIx = 0 := by
  simpa using opAt_cases h

/-- No operation but VALIDATE writes DATA (R187). -/
theorem runOp_data {s t : State} {op : EngOp} (hop : s.op = some op) (hv : op ≠ .validate)
    (h : runOp op s = .next t) : t.data = s.data := by
  obtain ⟨-, rfl⟩ | ⟨rfl, -⟩ | ⟨-, -, -, rfl⟩ | ⟨-, i, u, hi, hu, rfl⟩ := runOp_cases (busy_of_op hop) hop h
  · rw [advance_frame, gtaNoRequest_frame]
  · exact absurd rfl hv
  · rw [engineReact_frame, gtaNoRequest_frame]
  · rw [engineReact_frame, exec_primitive_frame (decodeGtaReq_primitive (decodeGtaReq_requestWord hi)) hu]
    rfl

theorem gtaNoRequest_data (s : State) : (gtaNoRequest s).data = s.data := by rw [gtaNoRequest_frame]

theorem gtaNoRequest_sr (s : State) : (gtaNoRequest s).sr = s.sr := by rw [gtaNoRequest_frame]

theorem gtaNoRequest_st (s : State) : (gtaNoRequest s).st = s.st := by rw [gtaNoRequest_frame]

theorem gtaNoRequest_stepIx (s : State) : (gtaNoRequest s).stepIx = s.stepIx := by rw [gtaNoRequest_frame]

/-- Settles O49: of the operations only VALIDATE writes DATA, and then on a match; of the host's accesses only an
accepted START. -/
theorem noPartialResult : Obligations.NoPartialResult := by
  intro s t hstep hrst
  obtain ⟨hr, -⟩ | ⟨-, -, v, op, u, hop, hu, rfl⟩ | ⟨-, hb, v, rfl | ⟨f, rfl⟩⟩ := step_cases hstep
  · simp [hrst] at hr
  · by_cases hv : op = .validate
    · subst hv
      cases hu
      obtain ⟨hchk, heq⟩ | ⟨-, heq⟩ := validate_cases (gtaNoRequest (driveData v s))
      · rw [gtaNoRequest_sr] at hchk heq
        rw [heq]
        exact .inr (.inr ⟨(position_of_validate hop).1, rfl, rfl, rfl, hchk⟩)
      · rw [heq]
        exact .inl (gtaNoRequest_data _)
    · have hdata : u.data = s.data := runOp_data (s := driveData v s) hop hv hu
      exact .inl hdata
  · exact .inl (gtaNoRequest_data _)
  · exact .inr (.inl ⟨hb, gtaNoRequest_st _, gtaNoRequest_data _⟩)

/-! ### The transition table -/

section
variable {s : State} {op : EngOp}

@[simp] theorem done_st : (s.done op).st = s.st := rfl
@[simp] theorem done_stepIx : (s.done op).stepIx = s.stepIx := rfl
@[simp] theorem done_bitcnt : (s.done op).bitcnt = s.bitcnt := rfl

/-- While a delay goes on the operation has not completed. -/
theorem not_opCompletes_of_delay {g : GtaOp} {len : Nat} (hdelay : delayOf op s = some (g, len))
    (hleft : 1 < s.delayLeft len) : ¬ opCompletes op s := by
  have hends : ¬ delayEnds op s := by
    rw [delayEnds_iff hdelay]
    omega
  cases op with
  | resetLow | release | sampleDelay => exact hends
  | wait level =>
    rintro ⟨-, hw, -⟩
    simp [delayOf, hw] at hdelay
  | setLow | setHigh | sample | transit | validate => cases hdelay

/-- A position that holds does so because its operation has not completed: the table's first case. -/
theorem held_of_exchange {t x : State} (he : t.exchange = x.exchange) (hst : x.st = s.st) (hix : x.stepIx = s.stepIx)
    (hop : s.op = some op) (hc : ¬ opCompletes op s) :
    t.st = s.st ∧ t.stepIx = s.stepIx ∧ ∀ op, s.op = some op → ¬ opCompletes op s := by
  obtain ⟨-, ht, htix, -⟩ := fields_of_exchange he
  refine ⟨ht.trans hst, htix.trans hix, fun op' hop' => ?_⟩
  obtain rfl : op = op' := by simpa [hop] using hop'
  exact hc

/-- The operations before the last one of RESET, ACKWAIT1 and BITLOOP (R22). -/
theorem rows_within_a_state (hop : s.op = some op) (hpos : (s.st = .reset ∧ s.stepIx.toNat < 4) ∨
      (s.st = .ackWait1 ∧ s.stepIx.toNat < 2) ∨ (s.st = .bitLoop ∧ s.stepIx.toNat < 3)) (hc : opCompletes op s) :
    (s.st = .reset ∧ (s.stepIx = 0 ∧ opCompletes .setLow s ∨ s.stepIx = 1 ∧ opCompletes .resetLow s ∨
      s.stepIx = 2 ∧ opCompletes .setHigh s ∨ s.stepIx = 3 ∧ opCompletes .release s)) ∨
    (s.st = .ackWait1 ∧
      (s.stepIx = 0 ∧ opCompletes (.wait false) s ∨ s.stepIx = 1 ∧ opCompletes (.wait true) s)) ∨
    (s.st = .bitLoop ∧ (s.stepIx = 0 ∧ opCompletes (.wait true) s ∨ s.stepIx = 1 ∧ opCompletes .sampleDelay s ∨
      s.stepIx = 2 ∧ opCompletes .sample s)) := by
  rcases opAt_cases hop with h | h | h | h | h | h | h | h | h | h | h | h | h | h <;>
    obtain ⟨hst, hix, rfl⟩ := h <;> simp_all

/-- In the bit loop fewer than forty bits are committed (R27). -/
theorem State.Inv.bitcnt_lt (h : s.Inv) (hb : s.busy = true) (hst : s.st = .bitLoop) : s.bitcnt.toNat < 40 := by
  have hbits := h.bits
  rw [h.phase hb, hst] at hbits
  exact hbits

end

/-- Settles O40: with the engine at rest a START alone moves the position; a busy cycle goes one of the ways of its
operation, and each is the holding of the position or a row of the table. -/
theorem positionsFollowTheTransitionTable : Obligations.PositionsFollowTheTransitionTable := by
  intro s t h hstep
  cases hrst : s.hostIn.rst with
  | true =>
    obtain ⟨-, v, rfl⟩ | ⟨hr, -⟩ | ⟨hr, -⟩ := step_cases hstep
    · exact .inr (.inl ⟨rfl, rfl, rfl⟩)
    · simp [hrst] at hr
    · simp [hrst] at hr
  | false =>
    cases hb : s.busy with
    | false =>
      obtain ⟨v, rfl⟩ | ⟨f, hf, rfl⟩ := step_of_free hstep hrst hb
      · refine .inl ⟨gtaNoRequest_st _, gtaNoRequest_stepIx _, fun op hop => ?_⟩
        simp [busy_of_op hop] at hb
      · have hfam : (gtaNoRequest (driveData 0 (acceptStart f s))).fam = f := by rw [gtaNoRequest_frame]; rfl
        exact .inr (.inr (.inl ⟨rfl, rfl, ⟨f, hf, hfam⟩, gtaNoRequest_st _, gtaNoRequest_stepIx _⟩))
    | true =>
      obtain ⟨op, hop⟩ := Option.ne_none_iff_exists'.mp (h.position hb)
      have land {x : State} (hgo : GoesTo s x) : t.exchange = x.exchange := by
        obtain ⟨u, hu, he⟩ := hgo
        rw [hu] at hstep
        cases hstep
        exact he
      cases cycle_cases h (plain_of_step hstep hrst) hop with
      | delayGoesOn hdelay hleft hgo =>
        exact .inl (held_of_exchange (land hgo) rfl rfl hop (not_opCompletes_of_delay hdelay hleft))
      | noMatch hwait hd hw hseen hgo =>
        subst hwait
        exact .inl (held_of_exchange (land hgo) rfl rfl hop fun ⟨_, _, _, hmatch⟩ => hseen hmatch)
      | pollEnds hwait hw hends hgo =>
        subst hwait
        obtain ⟨-, heq⟩ | ⟨hlast, heq⟩ := endOfPoll_cases { s with dcnt := 0 } <;> rw [heq] at hgo
        · exact .inl (held_of_exchange (land hgo) rfl rfl hop fun ⟨_, hw', _⟩ => by simp [hw] at hw')
        · obtain ⟨-, ht, htix, -⟩ := fields_of_exchange (land hgo)
          have hbound := h.iterBound hb
          have hiter : s.iter.toNat + 1 = s.cfg.timeoutIters := Nat.le_antisymm hbound hlast
          iterate 14 right
          exact ⟨⟨_, hop, hw, hends⟩, hiter, ht, htix, congrArg State.result (land hgo)⟩
      | pinFault hpin hw hd hf hgo =>
        obtain ⟨-, ht, htix, -⟩ := fields_of_exchange (land hgo)
        iterate 13 right
        exact .inl ⟨⟨op, hop, hpin, hw⟩, hd, hf, ht, htix, congrArg State.result (land hgo),
          congrArg State.pinerr (land hgo)⟩
      | validates hv hgo =>
        obtain ⟨hst, hix⟩ := position_of_validate (hv ▸ hop)
        obtain ⟨hchk, heq⟩ | ⟨hchk, heq⟩ := validate_cases s <;> rw [heq] at hgo <;>
          obtain ⟨-, ht, htix, -⟩ := fields_of_exchange (land hgo)
        · iterate 11 right
          exact .inl ⟨hst, hix, ht, htix.trans hix, congrArg State.result (land hgo), hchk⟩
        · iterate 12 right
          exact .inl ⟨hst, hix, ht, htix.trans hix, congrArg State.result (land hgo), hchk⟩
      | completes hv hc hgo =>
        obtain ⟨-, ht, htix, -, -, htb, -⟩ := fields_of_exchange (land hgo)
        obtain ⟨hst, hix, rfl, heq⟩ | ⟨hst, hix, rfl, heq⟩ | ⟨hst, hix, rfl, heq⟩ | ⟨hst, hix, rfl, heq⟩ |
          ⟨hpos, heq⟩ := advance_cases (s := s.done op) hop hv <;> rw [heq] at ht htix htb
        · iterate 4 right
          exact .inl ⟨hst, hix, hc, ht, htix⟩
        · iterate 6 right
          exact .inl ⟨hst, hix, hc, ht, htix⟩
        · iterate 7 right
          exact .inl ⟨hst, hix, ht, htix⟩
        · obtain ⟨hcount, heq⟩ | ⟨hcount, heq⟩ := commitBit_cases (s.done (.wait false)) <;> rw [heq] at ht htix htb
          · have h40 : s.bitcnt + 1 = 40 := by
              change s.bitcnt.toNat + 1 = 40 at hcount
              bv_omega
            iterate 10 right
            exact .inl ⟨hst, hix, hc, hcount, htb.trans h40, ht, htix⟩
          · have hbits := h.bitcnt_lt hb hst
            have hcount : s.bitcnt.toNat + 1 ≠ 40 := hcount
            iterate 9 right
            exact .inl ⟨hst, hix, hc, by omega, htb, ht, htix⟩
        · obtain ⟨hst, hrow⟩ | ⟨hst, hrow⟩ | ⟨hst, hrow⟩ := rows_within_a_state hop hpos hc
          · exact .inr (.inr (.inr (.inl ⟨hst, hrow, ht.trans hst, htix⟩)))
          · iterate 5 right
            exact .inl ⟨hst, hrow, ht.trans hst, htix⟩
          · iterate 8 right
            exact .inl ⟨hst, hrow, ht.trans hst, htix⟩

end Sys2Proof.Machine
end

section
/-! PROOFS. Runs of many cycles, and the delays of the engine from their issue cycle to their last; O33. -/

namespace Sys2Proof.Machine

/-! ### Runs -/

theorem runFor_add (m n : Nat) (s : State) : runFor (m + n) s = andThen (runFor m s) (runFor n) := by
  induction m generalizing s with
  | zero => rw [Nat.zero_add]; rfl
  | succ m ih =>
    rw [Nat.add_right_comm, runFor, runFor, andThen_assoc]
    exact congrArg _ (funext ih)

theorem runFor_one (s : State) : runFor 1 s = step s := by
  rw [runFor]
  cases step s <;> rfl

/-- n cycles lead from s to t, and each of them starts in a state with P, which counts the cycles before it. -/
structure RunsThrough (P : Nat → State → Prop) (n : Nat) (s t : State) : Prop where
  reaches : runFor n s = .next t
  through : ∀ k < n, ∃ u, runFor k s = .next u ∧ P k u

section
variable {P Q : Nat → State → Prop} {m n : Nat} {s t u : State}

theorem RunsThrough.refl (P : Nat → State → Prop) (s : State) : RunsThrough P 0 s s :=
  ⟨rfl, nofun⟩

theorem RunsThrough.trans (h : RunsThrough P m s t) (h' : RunsThrough (fun k => P (m + k)) n t u) :
    RunsThrough P (m + n) s u := by
  have reach (k : Nat) : runFor (m + k) s = runFor k t := by rw [runFor_add, h.reaches, andThen_next]
  refine ⟨(reach n).trans h'.reaches, fun k hk => ?_⟩
  by_cases hkm : k < m
  · exact h.through k hkm
  · obtain ⟨v, hv, hP⟩ := h'.through (k - m) (by omega)
    rw [← reach, Nat.add_sub_cancel' (by omega)] at hv
    rw [Nat.add_sub_cancel' (by omega)] at hP
    exact ⟨v, hv, hP⟩

theorem RunsThrough.single (hP : P 0 s) (h : step s = .next t) : RunsThrough P 1 s t := by
  refine ⟨(runFor_one s).trans h, fun k hk => ?_⟩
  obtain rfl : k = 0 := by omega
  exact ⟨s, rfl, hP⟩

/-- The last of the cycles. -/
theorem RunsThrough.last (h : RunsThrough P (n + 1) s t) : ∃ u, runFor n s = .next u ∧ P n u ∧ step u = .next t := by
  obtain ⟨u, hu, hP⟩ := h.through n n.lt_succ_self
  have hreach := h.reaches
  rw [runFor_add, hu, andThen_next, runFor_one] at hreach
  exact ⟨u, hu, hP, hreach⟩

theorem RunsThrough.mono (h : RunsThrough P n s t) (hPQ : ∀ k < n, ∀ u, runFor k s = .next u → P k u → Q k u) :
    RunsThrough Q n s t := by
  refine ⟨h.reaches, fun k hk => ?_⟩
  obtain ⟨u, hu, hP⟩ := h.through k hk
  exact ⟨u, hu, hPQ k hk u hu hP⟩

end

/-! ### The host's inputs and the invariant along a run -/

section
variable {m n : Nat} {s t : State}

theorem State.plainFor.mono (h : s.plainFor n) (hmn : m ≤ n) : s.plainFor m := fun x hx =>
  h x ((List.take_subset_take_left _ hmn) hx)

theorem State.plainFor.hostIn (h : s.plainFor n) (hn : 0 < n) : s.hostIn.plain = true := by
  unfold State.hostIn
  cases hq : s.hostQ with
  | nil => rfl
  | cons x q =>
    refine h x ?_
    obtain ⟨k, rfl⟩ := Nat.exists_eq_succ_of_ne_zero hn.ne'
    simp [hq]

theorem rst_of_plain {h : HostIn} (hp : h.plain = true) : h.rst = false := by
  simp_all [HostIn.plain]

theorem State.plainFor.step (h : s.plainFor (n + 1)) (hstep : Machine.step s = .next t) : t.plainFor n := by
  rw [step_frame_of_rst_low hstep (rst_of_plain (h.hostIn n.succ_pos))]
  intro x hx
  have hx : x ∈ (s.hostQ.drop 1).take n := hx
  rw [List.take_drop, Nat.add_comm] at hx
  exact h x (List.mem_of_mem_drop hx)

theorem State.plainFor.runFor (h : s.plainFor (m + n)) (hrun : Machine.runFor m s = .next t) : t.plainFor n := by
  induction m generalizing s with
  | zero =>
    cases hrun
    rwa [Nat.zero_add] at h
  | succ m ih =>
    obtain ⟨u, hu, hrun⟩ := andThen_eq_next hrun
    rw [Nat.add_right_comm] at h
    exact ih (h.step hu) hrun

theorem State.Inv.runFor (h : s.Inv) (hrun : Machine.runFor n s = .next t) : t.Inv := by
  induction n generalizing s with
  | zero => cases hrun; exact h
  | succ n ih =>
    obtain ⟨u, hu, hrun⟩ := andThen_eq_next hrun
    exact ih (stepKeepsInv _ _ h hu) hrun

end

/-! ### A delay -/

/-- The exchange k cycles into a delay of `len` cycles. -/
def State.inDelay (len k : Nat) (s : State) : State := { s with dcnt := if k = 0 then 0 else len - k }

theorem inDelay_next (len k : Nat) (s : State) :
    { s.inDelay len k with dcnt := len - k - 1 } = s.inDelay len (k + 1) := by
  simp [State.inDelay, Nat.sub_sub]

/-- Setting the counter forgets where it stood. -/
theorem exchange_withDcnt {s t : State} (h : t.exchange = s.exchange) (d : Nat) :
    { t with dcnt := d }.exchange = { s with dcnt := d }.exchange :=
  congrArg (fun x : State => { x with dcnt := d }) h

/-- A delay that is over leaves the exchange as it was. -/
theorem exchange_afterDelay {s t : State} {len k : Nat} (h : t.exchange = (s.inDelay len k).exchange)
    (hd : s.dcnt = 0) : { t with dcnt := 0 }.exchange = s.exchange := by
  rw [exchange_withDcnt h, ← hd]
  rfl

/-- What an operation waits for depends on the exchange alone. -/
theorem op_of_exchange {s t : State} (h : t.exchange = s.exchange) : t.op = s.op :=
  (congrArg State.op h :)

theorem delayOf_of_exchange {s t : State} (h : t.exchange = s.exchange) (op : EngOp) : delayOf op t = delayOf op s :=
  (congrArg (delayOf op) h :)

theorem request_of_exchange {s t : State} (h : t.exchange = s.exchange) : t.request = s.request :=
  (congrArg State.request h :)

section
variable {s : State} {op : EngOp} {g : GtaOp} {len : Nat}

theorem delayLeft_inDelay {t : State} {k : Nat} (h : t.exchange = (s.inDelay len k).exchange) (hk : k < len) :
    t.delayLeft len = len - k := by
  obtain ⟨-, -, -, -, -, -, -, -, -, hd⟩ := fields_of_exchange h
  by_cases h0 : k = 0
  · simp [State.delayLeft, hd, State.inDelay, h0]
  · have hne : len - k ≠ 0 := by omega
    simp [State.delayLeft, hd, State.inDelay, h0, hne]

variable (h : s.Inv) (hop : s.op = some op) (hdelay : delayOf op s = some (g, len)) (hd : s.dcnt = 0)
include h hop hdelay hd

/-- All the cycles of a delay but the last: it holds the exchange, and counts. -/
theorem runs_delay {k : Nat} (hk : k < len) (hp : s.plainFor k) : ∃ t,
    RunsThrough (fun i u => u.exchange = (s.inDelay len i).exchange) k s t ∧
      t.exchange = (s.inDelay len k).exchange := by
  induction k with
  | zero => exact ⟨s, .refl _ _, by rw [State.inDelay, if_pos rfl, ← hd]⟩
  | succ k ih =>
    obtain ⟨u, hrun, he⟩ := ih (by omega) (hp.mono k.le_succ)
    have hleft := delayLeft_inDelay he (by omega)
    have hop' : u.op = some op := (op_of_exchange he).trans hop
    have hdelay' : delayOf op u = some (g, len) := (delayOf_of_exchange he op).trans hdelay
    have hplain : u.plainFor 1 := hp.runFor hrun.reaches
    obtain ⟨t, hstep, ht⟩ := goesTo_delay (h.runFor hrun.reaches) (hplain.hostIn one_pos) hop' hdelay' (by omega)
    refine ⟨t, hrun.trans (.single he hstep), ht.trans ?_⟩
    rw [exchange_withDcnt he, hleft, inDelay_next]

/-- A delay up to the start of its last cycle. -/
theorem runs_to_delayEnds (hp : s.plainFor len) : ∃ t,
    RunsThrough (fun i u => u.exchange = (s.inDelay len i).exchange) (len - 1) s t ∧
      t.exchange = (s.inDelay len (len - 1)).exchange ∧ t.Inv ∧ t.hostIn.plain = true ∧ t.op = some op ∧
      delayEnds op t := by
  have hpos := h.delay_pos hdelay
  obtain ⟨t, hrun, he⟩ := runs_delay h hop hdelay hd (k := len - 1) (by omega) (hp.mono (by omega))
  have hplain : t.plainFor 1 := State.plainFor.runFor (m := len - 1) (hp.mono (by omega)) hrun.reaches
  refine ⟨t, hrun, he, h.runFor hrun.reaches, hplain.hostIn one_pos, (op_of_exchange he).trans hop, ?_⟩
  rw [delayEnds_iff ((delayOf_of_exchange he op).trans hdelay), delayLeft_inDelay he (by omega)]
  omega

/-- A fixed delay, all its cycles: it holds the exchange, and the position moves at the end. -/
theorem runs_fixedDelay (hw : op.isWait = false) (hp : s.plainFor len) : ∃ t,
    RunsThrough (fun i u => u.exchange = (s.inDelay len i).exchange) len s t ∧
      t.exchange = (advance s).exchange := by
  obtain ⟨u, hrun, he, hinv, hplain, hopu, hends⟩ := runs_to_delayEnds h hop hdelay hd hp
  have hpos := h.delay_pos hdelay
  have hidle : { u with dcnt := 0 }.exchange = s.exchange := exchange_afterDelay he hd
  have hdone : op ≠ .validate ∧ opCompletes op u ∧ (u.done op).exchange = s.exchange := by
    rw [exchange_done_of_noWait hinv hopu hw, ← hidle]
    cases op with
    | resetLow | release | sampleDelay => exact ⟨nofun, hends, rfl⟩
    | wait level => cases hw
    | setLow | setHigh | sample | transit | validate => cases hdelay
  obtain ⟨hv, hc, hdone⟩ := hdone
  obtain ⟨t, hstep, ht⟩ := goesTo_advance hinv hplain hopu hv hc
  have hrun' := hrun.trans (.single he hstep)
  rw [Nat.sub_add_cancel hpos] at hrun'
  exact ⟨t, hrun', ht.trans (exchange_congr exchange_advance hdone)⟩

end

/-- Settles O33: each of the three positions waits for one delay, which holds the exchange until its last cycle and
then moves to the next step. -/
theorem fixedDelaysHoldTheirPosition : Obligations.FixedDelaysHoldTheirPosition := by
  intro s len hpos h hd hp
  obtain ⟨op, g, hop, hdelay, hw, ht, hv⟩ : ∃ op g, s.op = some op ∧ delayOf op s = some (g, len) ∧
      op.isWait = false ∧ op ≠ .transit ∧ op ≠ .validate := by
    obtain ⟨hst, hix, rfl⟩ | ⟨hst, hix, rfl⟩ | ⟨hst, hix, rfl⟩ := hpos
    · exact ⟨.resetLow, _, by simp [State.op, opAt, hst, hix], rfl, rfl, nofun, nofun⟩
    · exact ⟨.release, _, by simp [State.op, opAt, hst, hix], rfl, rfl, nofun, nofun⟩
    · exact ⟨.sampleDelay, _, by simp [State.op, opAt, hst, hix], rfl, rfl, nofun, nofun⟩
  obtain ⟨t, hrun, he⟩ := runs_fixedDelay h hop hdelay hd hw hp
  rw [advance_of_noWait hop hw ht hv] at he
  refine ⟨fun k hk => ?_, t, hrun.reaches, ?_⟩
  · obtain ⟨u, hu, hue⟩ := hrun.through k hk
    obtain ⟨-, hst, hix, -, -, -, -, -, hpad, -⟩ := fields_of_exchange hue
    exact ⟨u, hu, hst, hix, hpad⟩
  · obtain ⟨-, hst, hix, -, -, -, -, -, hpad, hdcnt⟩ := fields_of_exchange he
    exact ⟨hst, hix, hdcnt.trans hd, hpad⟩

end Sys2Proof.Machine
end

section
/-! PROOFS. A bounded wait: one iteration, the iterations before a sample, the sample that ends it, and the Timeout;
O34 and O35. -/

namespace Sys2Proof.Machine

/-! ### One iteration -/

/-- The exchange r cycles into an iteration that does not match: the sample cycle, then the polling delay. -/
def State.inIteration (r : Nat) (s : State) : State :=
  if r = 0 then s else { s with wph := true }.inDelay (s.cfg.usCycles s.cfg.pollUs) (r - 1)

/-- The exchange at the start of iteration i. -/
def State.atIteration (i : Nat) (s : State) : State := { s with iter := BitVec.ofNat 8 i }

/-- The exchange k cycles into a wait that does not match. -/
def InWait (s : State) (k : Nat) (u : State) : Prop :=
  u.exchange = ((s.atIteration (k / s.cfg.iterCyc)).inIteration (k % s.cfg.iterCyc)).exchange

theorem iterCyc_eq (c : Config) : c.iterCyc = 1 + c.usCycles c.pollUs := rfl

section
variable {s : State} {level : Bool}

theorem pollDelay (hw : s.wph = true) :
    delayOf (.wait level) s = some (.delayUs, s.cfg.usCycles s.cfg.pollUs) := if_pos hw

/-- A wait's polling delay, all its cycles (R161). -/
theorem runs_poll (h : s.Inv) (hop : s.op = some (.wait level)) (hw : s.wph = true) (hd : s.dcnt = 0)
    (hp : s.plainFor (s.cfg.usCycles s.cfg.pollUs)) : ∃ t,
    RunsThrough (fun i u => u.exchange = (s.inDelay (s.cfg.usCycles s.cfg.pollUs) i).exchange)
      (s.cfg.usCycles s.cfg.pollUs) s t ∧ t.exchange = (endOfPoll s).exchange := by
  obtain ⟨u, hrun, he, hinv, hplain, hopu, hends⟩ := runs_to_delayEnds h hop (pollDelay hw) hd hp
  have hwu : u.wph = true := by
    obtain ⟨-, -, -, -, hwu, -⟩ := fields_of_exchange he
    exact hwu.trans hw
  obtain ⟨t, hstep, ht⟩ := goesTo_endOfPoll hinv hplain hopu rfl hwu hends
  have hrun' := hrun.trans (.single he hstep)
  rw [Nat.sub_add_cancel (h.delay_pos (pollDelay (level := level) hw))] at hrun'
  have hidle : { u with dcnt := 0 }.exchange = s.exchange := exchange_afterDelay he hd
  exact ⟨t, hrun', ht.trans (exchange_congr exchange_endOfPoll hidle)⟩

/-- An iteration whose sample neither matches nor faults, all its cycles (R161). -/
theorem runs_iteration (h : s.Inv) (hop : s.op = some (.wait level)) (hw : s.wph = false) (hseen : s.seen = !level)
    (hf : s.draw.pinFault = false) (hp : s.plainFor s.cfg.iterCyc) : ∃ t,
    RunsThrough (fun r u => u.exchange = (s.inIteration r).exchange) s.cfg.iterCyc s t ∧
      t.exchange = (endOfPoll { s with wph := true }).exchange := by
  have hd := h.dcnt_of_noDelay hop (by simp [delayOf, hw])
  rw [iterCyc_eq, Nat.add_comm] at hp
  obtain ⟨u, hstep, hu⟩ := goesTo_noMatch h (hp.hostIn (Nat.succ_pos _)) hop rfl hw hf (by simp [hseen])
  obtain ⟨hcfg, -, -, -, hwph, -, -, -, -, hdcnt⟩ := fields_of_exchange hu
  have hcfg : u.cfg = s.cfg := hcfg
  have hpu := hp.step hstep
  rw [← hcfg] at hpu
  obtain ⟨t, hrun, ht⟩ := runs_poll (stepKeepsInv _ _ h hstep) ((op_of_exchange hu).trans hop) hwph (hdcnt.trans hd) hpu
  rw [hcfg] at hrun
  refine ⟨t, .trans (.single rfl hstep) (hrun.mono fun k _ v _ hv => ?_),
    ht.trans (exchange_congr exchange_endOfPoll hu)⟩
  rw [hv, State.inIteration, if_neg (by omega), Nat.add_sub_cancel_left]
  exact exchange_withDcnt hu _

/-! ### The iterations before a sample -/

/-- An iteration within the budget leads to the next one (R161). -/
theorem endOfPoll_atIteration {i : Nat} (h : s.Inv) (hw : s.wph = false) (hi : i + 1 < s.cfg.timeoutIters) :
    endOfPoll { s.atIteration i with wph := true } = s.atIteration (i + 1) := by
  obtain ⟨-, -, -, hN, -⟩ := h.params
  have hiter : (BitVec.ofNat 8 i).toNat + 1 < s.cfg.timeoutIters := by
    rw [BitVec.toNat_ofNat]
    omega
  have heq : endOfPoll { s.atIteration i with wph := true } =
      { s with iter := BitVec.ofNat 8 i + 1, wph := false } := if_pos hiter
  rw [heq, State.atIteration, BitVec.ofNat_add, ← hw]
  rfl

/-- The budget is up at the end of the last iteration (R161, R273). -/
theorem endOfPoll_atLastIteration {i : Nat} (h : s.Inv) (hi : s.cfg.timeoutIters = i + 1) :
    endOfPoll { s.atIteration i with wph := true } = failExchange .timeout { s.atIteration i with wph := true } := by
  obtain ⟨-, -, -, hN, -⟩ := h.params
  refine if_neg ?_
  show ¬ (BitVec.ofNat 8 i).toNat + 1 < s.cfg.timeoutIters
  rw [BitVec.toNat_ofNat]
  omega

theorem atIteration_zero (hiter : s.iter = 0) : s.atIteration 0 = s := by
  have h0 : BitVec.ofNat 8 0 = s.iter := hiter.symm
  rw [State.atIteration, h0]

/-- A wait that has completed leaves the exchange as the wait found it. -/
theorem exchange_done_atIteration {u : State} {i : Nat} (hu : u.exchange = (s.atIteration i).exchange)
    (hiter : s.iter = 0) (hw : s.wph = false) (hd : s.dcnt = 0) :
    (u.done (.wait level)).exchange = s.exchange := by
  have hdone : (u.done (.wait level)).exchange = { s with iter := 0, wph := false, dcnt := 0 }.exchange :=
    (congrArg (fun x : State => { x with iter := 0, wph := false, dcnt := 0 }) hu :)
  rw [hdone, ← hiter, ← hw, ← hd]

theorem exchange_inIteration {x u : State} (h : u.exchange = x.exchange) (r : Nat) :
    (u.inIteration r).exchange = (x.inIteration r).exchange := by
  obtain ⟨hcfg, -⟩ := fields_of_exchange h
  unfold State.inIteration
  split
  · exact h
  · have hlen : u.cfg.usCycles u.cfg.pollUs = x.cfg.usCycles x.cfg.pollUs := by rw [hcfg]
    rw [hlen]
    exact congrArg (fun y : State => { y with wph := true }.inDelay (x.cfg.usCycles x.cfg.pollUs) (r - 1)) h

/-- Cycle r of iteration j is cycle j·ITER_CYC + r of the wait (R8). -/
theorem inWait_of_iteration {u v : State} {j r : Nat} (hu : u.exchange = (s.atIteration j).exchange)
    (hr : r < s.cfg.iterCyc) (hv : v.exchange = (u.inIteration r).exchange) : InWait s (j * s.cfg.iterCyc + r) v := by
  have hpos : 0 < s.cfg.iterCyc := by omega
  rw [InWait, Nat.mul_comm, Nat.mul_add_div hpos, Nat.mul_add_mod, Nat.div_eq_of_lt hr, Nat.mod_eq_of_lt hr, hv]
  exact exchange_inIteration hu r

section
variable (h : s.Inv) (hop : s.op = some (.wait level)) (hiter : s.iter = 0) (hw : s.wph = false)
include h hop hiter hw

omit hiter in
/-- One iteration more. -/
theorem runs_nextIteration {j : Nat} {u : State} (hrun : RunsThrough (InWait s) (j * s.cfg.iterCyc) s u)
    (hu : u.exchange = (s.atIteration j).exchange) (hseen : u.seen = !level) (hf : u.draw.pinFault = false)
    (hp : s.plainFor ((j + 1) * s.cfg.iterCyc)) : ∃ t, RunsThrough (InWait s) ((j + 1) * s.cfg.iterCyc) s t ∧
      t.exchange = (endOfPoll { s.atIteration j with wph := true }).exchange := by
  obtain ⟨hcfg, -, -, -, hwu, -⟩ := fields_of_exchange hu
  have hcfg : u.cfg = s.cfg := hcfg
  rw [Nat.succ_mul] at hp
  have hpu := hp.runFor hrun.reaches
  rw [← hcfg] at hpu
  obtain ⟨t, hnext, ht⟩ :=
    runs_iteration (h.runFor hrun.reaches) ((op_of_exchange hu).trans hop) (hwu.trans hw) hseen hf hpu
  rw [hcfg] at hnext
  rw [Nat.succ_mul]
  refine ⟨t, hrun.trans (hnext.mono fun r hr v _ hv => inWait_of_iteration hu hr hv), ht.trans ?_⟩
  exact exchange_congr exchange_endOfPoll (congrArg (fun x : State => { x with wph := true }) hu)

/-- The samples before iteration j neither match nor fault, if the wait has held until they are taken. -/
def NoMatchBefore (s : State) (level : Bool) (j : Nat) : Prop :=
  ∀ i < j, ∀ u, RunsThrough (InWait s) (i * s.cfg.iterCyc) s u → u.exchange = (s.atIteration i).exchange →
    u.seen = !level ∧ u.draw.pinFault = false

/-- The iterations before the j-th (R161). -/
theorem runs_iterations {j : Nat} (hj : j < s.cfg.timeoutIters) (hp : s.plainFor (j * s.cfg.iterCyc))
    (hno : NoMatchBefore s level j) :
    ∃ t, RunsThrough (InWait s) (j * s.cfg.iterCyc) s t ∧ t.exchange = (s.atIteration j).exchange := by
  induction j with
  | zero =>
    rw [Nat.zero_mul]
    exact ⟨s, .refl _ _, by rw [atIteration_zero hiter]⟩
  | succ j ih =>
    obtain ⟨u, hrun, hu⟩ := ih (by omega) (hp.mono (Nat.mul_le_mul_right _ j.le_succ)) fun i hi => hno i (by omega)
    obtain ⟨hseen, hf⟩ := hno j j.lt_succ_self u hrun hu
    obtain ⟨t, hrun', ht⟩ := runs_nextIteration h hop hw hrun hu hseen hf hp
    exact ⟨t, hrun', by rw [ht, endOfPoll_atIteration h hw hj]⟩

/-- A wait that never matches ends in Timeout after all its iterations (R273). -/
theorem runs_timeout (hp : s.plainFor (s.cfg.timeoutIters * s.cfg.iterCyc))
    (hno : NoMatchBefore s level s.cfg.timeoutIters) : ∃ t i,
    RunsThrough (InWait s) (s.cfg.timeoutIters * s.cfg.iterCyc) s t ∧
      t.exchange = (failExchange .timeout { s.atIteration i with wph := true }).exchange := by
  obtain ⟨-, -, hN, -⟩ := h.params
  obtain ⟨i, hi⟩ : ∃ i, s.cfg.timeoutIters = i + 1 := ⟨_, (Nat.sub_add_cancel hN).symm⟩
  rw [hi] at hp hno ⊢
  obtain ⟨u, hrun, hu⟩ := runs_iterations h hop hiter hw (j := i) (by omega)
    (hp.mono (Nat.mul_le_mul_right _ i.le_succ)) fun k hk => hno k (by omega)
  obtain ⟨hseen, hf⟩ := hno i i.lt_succ_self u hrun hu
  obtain ⟨t, hrun', ht⟩ := runs_nextIteration h hop hw hrun hu hseen hf hp
  exact ⟨t, i, hrun', by rw [ht, endOfPoll_atLastIteration h hi]⟩

end

/-! ### What is seen of a wait -/

theorem position_inIteration (r : Nat) (s : State) :
    (s.inIteration r).st = s.st ∧ (s.inIteration r).stepIx = s.stepIx := by
  unfold State.inIteration
  split <;> exact ⟨rfl, rfl⟩

theorem position_of_inWait {k : Nat} {u : State} (h : InWait s k u) : u.st = s.st ∧ u.stepIx = s.stepIx := by
  obtain ⟨-, hst, hix, -⟩ := fields_of_exchange h
  obtain ⟨hst', hix'⟩ := position_inIteration (k % s.cfg.iterCyc) (s.atIteration (k / s.cfg.iterCyc))
  exact ⟨hst.trans hst', hix.trans hix'⟩

/-- The requests of an iteration: the sample, then the polling delay, then none while it runs (R161, R93). -/
theorem request_inIteration {r : Nat} (hop : s.op = some (.wait level)) (hw : s.wph = false) (hd : s.dcnt = 0)
    (hr : r < s.cfg.iterCyc) : (s.inIteration r).request =
      if r = 0 then (if level then 0x40000 else 0x30000)
      else if r = 1 then reqWord 5 s.cfg.pollUs else 0 := by
  rw [iterCyc_eq] at hr
  obtain rfl | rfl | hr2 : r = 0 ∨ r = 1 ∨ 2 ≤ r := by omega
  · have hreq : requestOf (.wait level) s = some (if level then .isHigh else .isLow) := by
      rw [requestOf, if_neg (by simp [hw])]
      cases level <;> rfl
    have hs : s.request = _ := request_of_op (busy_of_op hop) hd hop hreq
    rw [if_pos rfl, State.inIteration, if_pos rfl, hs]
    cases level <;> rfl
  · have hreq : requestOf (.wait level) { s with wph := true } = some (.delayUs s.cfg.pollUs) := rfl
    exact request_of_op (s := { s with wph := true, dcnt := 0 }) (busy_of_op hop) rfl hop hreq
  · have hne : r - 1 ≠ 0 := by omega
    have hrun : s.cfg.usCycles s.cfg.pollUs - (r - 1) ≠ 0 := by omega
    rw [State.inIteration, if_neg (by omega), if_neg (by omega), if_neg (by omega)]
    simp [State.request, State.inDelay, hne, hrun]

/-- A step into FAILED leaves `ph` at the state the exchange was in (R23). -/
theorem ph_of_failed {u t : State} (hu : u.Inv) (hb : u.busy = true) (hplain : u.hostIn.plain = true)
    (hstep : step u = .next t) (hst : t.st = .failed) : t.ph = u.st := by
  rw [phKeepsTheLastBusyState _ _ hstep (rst_of_plain hplain), if_neg (by simp [State.busy, hst, EngSt.busy])]
  exact hu.phase hb

/-- A wait that runs into FAILED leaves `ph` at its own state (R23, R276). -/
theorem ph_of_timeout {n : Nat} {t : State} (h : s.Inv) (hop : s.op = some (.wait level)) (hn : 0 < n)
    (hp : s.plainFor n) (hrun : RunsThrough (InWait s) n s t) (hst : t.st = .failed) : t.ph = s.st := by
  obtain ⟨k, rfl⟩ := Nat.exists_eq_succ_of_ne_zero hn.ne'
  obtain ⟨u, hu, huw, hstep⟩ := hrun.last
  obtain ⟨hust, huix⟩ := position_of_inWait huw
  have hbu := busy_of_op ((op_of_position hust huix).trans hop)
  have hpu : u.plainFor 1 := hp.runFor hu
  rw [ph_of_failed (h.runFor hu) hbu (hpu.hostIn one_pos) hstep hst, hust]

end

/-- Settles O34: each iteration begins with a sample that does not match and holds the position; the last one ends in
Timeout. -/
theorem waitTimesOutAfterNIterations : Obligations.WaitTimesOutAfterNIterations := by
  intro s level h hb hop hiter hw hp hno
  have hd := h.dcnt_of_noDelay hop (by simp [delayOf, hw])
  have hpos : 0 < s.cfg.iterCyc := by rw [iterCyc_eq]; omega
  obtain ⟨hph, -, hpinerr, -⟩ := h.noOutcome hop
  obtain ⟨-, -, hN, -⟩ := h.params
  obtain ⟨t, i, hrun, ht⟩ := runs_timeout h hop hiter hw hp fun i hi u hu _ => hno i hi u hu.reaches
  obtain ⟨-, hst, hix, -, -, hbits, -⟩ := fields_of_exchange ht
  have hpinerr' : t.pinerr = s.pinerr := (congrArg State.pinerr ht :)
  refine ⟨fun k hk => ?_, t, hrun.reaches, hst, (congrArg State.result ht :), hpinerr'.trans hpinerr, hix, ?_, hbits⟩
  · obtain ⟨u, hu, huw⟩ := hrun.through k hk
    obtain ⟨hust, huix⟩ := position_of_inWait huw
    exact ⟨u, hu, hust, huix, (request_of_exchange huw).trans
      (request_inIteration (s := s.atIteration (k / s.cfg.iterCyc)) hop hw hd (Nat.mod_lt _ hpos))⟩
  · rw [ph_of_timeout h hop (Nat.mul_pos hN hpos) hp hrun hst, hph]

/-- Settles O35: iteration j's sample is the first cycle of the wait's iteration j, and the sample's answer decides. -/
theorem waitEndsAtItsFirstMatchOrFault : Obligations.WaitEndsAtItsFirstMatchOrFault := by
  intro s u level j h hb hop hiter hw hj hp hno hu
  obtain ⟨hph, -, -, -⟩ := h.noOutcome hop
  have hd := h.dcnt_of_noDelay hop (by simp [delayOf, hw])
  obtain ⟨-, -, -, hN, -⟩ := h.params
  obtain ⟨v, hrun, hv⟩ := runs_iterations h hop hiter hw hj (hp.mono (Nat.le_succ _))
    fun i hi x hx _ => hno i hi x hx.reaches
  obtain rfl : v = u := by simpa [hu] using hrun.reaches.symm
  have hinv := h.runFor hu
  have hpv : v.plainFor 1 := hp.runFor hu
  have hopv : v.op = some (.wait level) := (op_of_exchange hv).trans hop
  obtain ⟨-, hst, hix, hit, hwv, -, -, -, -, hdv⟩ := fields_of_exchange hv
  have hjv : v.iter.toNat = j := by
    rw [hit, State.atIteration, BitVec.toNat_ofNat]
    omega
  have reach {x : State} (hgo : GoesTo v x) : ∃ t, runFor (j * s.cfg.iterCyc + 1) s = .next t ∧ step v = .next t ∧
      t.exchange = x.exchange := by
    obtain ⟨t, hstep, ht⟩ := hgo
    exact ⟨t, by rw [runFor_add, hu, andThen_next, runFor_one, hstep], hstep, ht⟩
  refine ⟨hjv, hwv.trans hw, fun hf hseen => ?_, fun hf => ?_⟩
  · obtain ⟨t, hreach, -, ht⟩ := reach (goesTo_advance hinv (hpv.hostIn one_pos) hopv nofun
      ⟨hdv.trans hd, hwv.trans hw, hf, hseen⟩)
    obtain ⟨-, htst, htix, hit', hw', hbits, hsr, -⟩ :=
      fields_of_exchange (ht.trans (exchange_congr exchange_advance (exchange_done_atIteration hv hiter hw hd)))
    have hframe : (advance s).iter = s.iter ∧ (advance s).wph = s.wph := by
      rw [advance_frame]
      exact ⟨rfl, rfl⟩
    exact ⟨t, hreach, hit'.trans (hframe.1.trans hiter), hw'.trans (hframe.2.trans hw), htst, htix, hbits, hsr⟩
  · obtain ⟨t, hreach, hstep, ht⟩ :=
      reach (goesTo_pinFault (hpv.hostIn one_pos) hopv rfl (fun _ => hwv.trans hw) (hdv.trans hd) hf)
    obtain ⟨-, htst, htix, -⟩ := fields_of_exchange ht
    exact ⟨t, hreach, htst, (congrArg State.result ht :), (congrArg State.pinerr ht :), htix.trans hix,
      by rw [ph_of_failed hinv (busy_of_op hopv) (hpv.hostIn one_pos) hstep htst, hst, hph]; rfl⟩

end Sys2Proof.Machine
end

section
/-! PROOFS. How many cycles an exchange can still take: a bound that every cycle lowers; O41. -/

namespace Sys2Proof

/-! ### The bound -/

/-- The cycles of a bounded wait that never matches (R161). -/
def Config.waitCycles (c : Config) : Nat := c.timeoutIters * c.iterCyc

/-- The most cycles a bit takes after its rise is awaited: its delay, its sample and its closing wait (R177-R179). -/
def Config.bitTail (c : Config) : Nat := c.usCycles c.sampleDelayUs + 1 + c.waitCycles

/-- The most cycles n bits and VALIDATE take (R175-R182). -/
def Config.bitsCycles (c : Config) (n : Nat) : Nat := n * (c.waitCycles + c.bitTail) + 1

end Sys2Proof

namespace Sys2Proof.Machine

/-- The most cycles the operation takes from here on, the coming one among them. -/
def cyclesLeft (op : EngOp) (s : State) : Nat :=
  match op with
  | .wait _ =>
    (s.cfg.timeoutIters - 1 - s.iter.toNat) * s.cfg.iterCyc +
      if s.wph then s.delayLeft (s.cfg.usCycles s.cfg.pollUs) else s.cfg.iterCyc
  | .resetLow => s.delayLeft (s.cfg.msCycles (s.cfg.resetLowMs s.fam))
  | .release => s.delayLeft (s.cfg.usCycles (s.cfg.releaseUs s.fam))
  | .sampleDelay => s.delayLeft (s.cfg.usCycles s.cfg.sampleDelayUs)
  | .setLow | .setHigh | .transit | .sample | .validate => 1

/-- The most cycles from the end of the operation at a position to the end of the exchange, position by position. -/
def cyclesAfter (s : State) : Nat :=
  let c := s.cfg
  let release := c.usCycles (c.releaseUs s.fam)
  let moreBits := c.bitsCycles (39 - s.bitcnt.toNat)
  match s.st, s.stepIx.toNat with
  | .reset, 0 => c.msCycles (c.resetLowMs s.fam) + 1 + release + 4 * c.waitCycles + 1 + c.bitsCycles 40
  | .reset, 1 => 1 + release + 4 * c.waitCycles + 1 + c.bitsCycles 40
  | .reset, 2 => release + 4 * c.waitCycles + 1 + c.bitsCycles 40
  | .reset, 3 => 4 * c.waitCycles + 1 + c.bitsCycles 40
  | .reset, 4 => 3 * c.waitCycles + 1 + c.bitsCycles 40
  | .ackWait1, 0 => 2 * c.waitCycles + 1 + c.bitsCycles 40
  | .ackWait1, 1 => c.waitCycles + 1 + c.bitsCycles 40
  | .ackWait1, 2 => 1 + c.bitsCycles 40
  | .ackWait2, 0 => c.bitsCycles 40
  | .bitLoop, 0 => c.bitTail + moreBits
  | .bitLoop, 1 => 1 + c.waitCycles + moreBits
  | .bitLoop, 2 => c.waitCycles + moreBits
  | .bitLoop, 3 => moreBits
  | _, _ => 0

/-- The most cycles an exchange can still take. -/
def State.bound (s : State) : Nat :=
  match s.op with
  | some op => cyclesLeft op s + cyclesAfter s
  | none => 0

section
variable {s t : State} {op : EngOp}

theorem bound_of_op (hop : s.op = some op) : s.bound = cyclesLeft op s + cyclesAfter s := by
  rw [State.bound, hop]

theorem bound_of_exchange (h : t.exchange = s.exchange) : t.bound = s.bound := (congrArg State.bound h :)

/-- The cycles of an operation that begins: a delay's length, all the iterations of a wait, or one cycle. -/
def cyclesOf (op : EngOp) (s : State) : Nat :=
  match op with
  | .wait _ => s.cfg.waitCycles
  | .resetLow => s.cfg.msCycles (s.cfg.resetLowMs s.fam)
  | .release => s.cfg.usCycles (s.cfg.releaseUs s.fam)
  | .sampleDelay => s.cfg.usCycles s.cfg.sampleDelayUs
  | .setLow | .setHigh | .transit | .sample | .validate => 1

theorem cyclesLeft_of_begin (hN : 1 ≤ s.cfg.timeoutIters) (hiter : s.iter = 0) (hw : s.wph = false)
    (hd : s.dcnt = 0) (op : EngOp) : cyclesLeft op s = cyclesOf op s := by
  cases op with
  | wait level =>
    obtain ⟨n, hn⟩ : ∃ n, s.cfg.timeoutIters = n + 1 := ⟨_, (Nat.sub_add_cancel hN).symm⟩
    simp [cyclesLeft, cyclesOf, hiter, hw, Config.waitCycles, hn, Nat.succ_mul]
  | resetLow | release | sampleDelay => exact if_pos hd
  | setLow | setHigh | transit | sample | validate => rfl

theorem bitsCycles_succ (c : Config) (n : Nat) :
    c.bitsCycles (n + 1) = c.waitCycles + c.bitTail + c.bitsCycles n := by
  rw [Config.bitsCycles, Config.bitsCycles, Nat.succ_mul]
  omega

/-- Where a committed bit leads, and what it leaves of the count (R179, R182). -/
theorem position_of_commitBit (s : State) :
    (commitBit s).bitcnt = s.bitcnt + 1 ∧ (commitBit s).cfg = s.cfg ∧ (commitBit s).stepIx = 0 ∧
      (s.bitcnt.toNat + 1 = 40 ∧ (commitBit s).st = .validate ∨
        s.bitcnt.toNat + 1 ≠ 40 ∧ (commitBit s).st = .bitLoop) := by
  obtain ⟨hlast, heq⟩ | ⟨hmore, heq⟩ := commitBit_cases s <;> rw [heq]
  · exact ⟨rfl, rfl, rfl, .inl ⟨hlast, rfl⟩⟩
  · exact ⟨rfl, rfl, rfl, .inr ⟨hmore, rfl⟩⟩

@[simp] theorem done_cfg : (s.done op).cfg = s.cfg := rfl
@[simp] theorem done_fam : (s.done op).fam = s.fam := rfl

/-- Between two operations the bound is what the first one left over (R160, R183). -/
theorem bound_advance (h : s.Inv) (hop : s.op = some op) (hv : op ≠ .validate) :
    (advance (s.done op)).bound = cyclesAfter s := by
  obtain ⟨-, -, hN, -⟩ := h.params
  have hbits := h.bits
  rw [h.phase (busy_of_op hop)] at hbits
  have hleft (op' : EngOp) : cyclesLeft op' (advance (s.done op)) = cyclesOf op' s := by
    have hbegin : (advance (s.done op)).iter = 0 ∧ (advance (s.done op)).wph = false ∧
        (advance (s.done op)).dcnt = 0 := by
      rw [advance_frame]
      exact ⟨rfl, rfl, rfl⟩
    obtain ⟨hiter, hw, hd⟩ := hbegin
    rw [cyclesLeft_of_begin (by rw [advance_frame]; exact hN) hiter hw hd]
    rw [advance_frame]
    rfl
  obtain ⟨hst, hix, rfl, heq⟩ | ⟨hst, hix, rfl, heq⟩ | ⟨hst, hix, rfl, heq⟩ | ⟨hst, hix, rfl, heq⟩ |
    ⟨hpos, heq⟩ := advance_cases (s := s.done op) hop hv <;> rw [heq] at hleft ⊢
  · simp only [done_st, done_stepIx] at hst hix
    simp [State.bound, State.op, opAt, hleft, cyclesOf, cyclesAfter, hst, hix]
    omega
  · simp only [done_st, done_stepIx] at hst hix
    simp [State.bound, State.op, opAt, hleft, cyclesOf, cyclesAfter, hst, hix]
  · simp only [done_st, done_stepIx] at hst hix
    have h0 : s.bitcnt.toNat = 0 := by rwa [hst] at hbits
    simp [State.bound, State.op, opAt, hleft, cyclesOf, cyclesAfter, hst, hix, h0, bitsCycles_succ _ 39, Nat.add_assoc]
  · simp only [done_st, done_stepIx] at hst hix
    have hcount : (s.bitcnt + 1).toNat = s.bitcnt.toNat + 1 := by
      have := h.bitcnt_lt (busy_of_op hop) hst
      bv_omega
    obtain ⟨hbit, hcfg, hix', ⟨hlast, hst'⟩ | ⟨hmore, hst'⟩⟩ := position_of_commitBit (s.done (.wait false))
    · have h39 : s.bitcnt.toNat = 39 := Nat.succ.inj hlast
      simp [State.bound, State.op, opAt, hleft, cyclesOf, cyclesAfter, hst, hix, hst', hix', h39, Config.bitsCycles]
    · have hlt := h.bitcnt_lt (busy_of_op hop) hst
      have hmore : s.bitcnt.toNat + 1 ≠ 40 := hmore
      obtain ⟨n, hn⟩ : ∃ n, 39 - s.bitcnt.toNat = n + 1 := ⟨38 - s.bitcnt.toNat, by omega⟩
      have hn' : 39 - (s.bitcnt + 1).toNat = n := by omega
      rw [done_cfg] at hcfg
      rw [done_bitcnt] at hbit
      have := bitsCycles_succ s.cfg n
      simp [State.bound, State.op, opAt, hleft, cyclesOf, cyclesAfter, hst, hix, hst', hix', hcfg, hbit, hn] at hn' ⊢
      rw [hn']
      omega
  · rcases opAt_cases hop with h | h | h | h | h | h | h | h | h | h | h | h | h | h <;>
      obtain ⟨hst, hix, rfl⟩ := h <;>
      simp [hst, hix] at hpos <;>
      simp [State.bound, State.op, opAt, hleft, cyclesOf, cyclesAfter, hst, hix, Config.bitTail] <;> omega
/-! ### Every cycle lowers it -/

theorem cyclesLeft_pos (h : s.Inv) (op : EngOp) : 0 < cyclesLeft op s := by
  have hdelay {g : GtaOp} {len : Nat} (hdelay : delayOf op s = some (g, len)) := delayLeft_pos h hdelay
  cases op with
  | resetLow | release | sampleDelay => exact hdelay rfl
  | setLow | setHigh | transit | sample | validate => exact Nat.one_pos
  | wait level =>
    rw [cyclesLeft, iterCyc_eq]
    split
    · exact Nat.add_pos_right _ (hdelay (if_pos ‹_›))
    · omega

theorem bound_pos (h : s.Inv) (hop : s.op = some op) : 0 < s.bound := by
  rw [bound_of_op hop]
  exact Nat.add_pos_left (cyclesLeft_pos h op) _

/-- A delay that goes on leaves the operation a cycle less. -/
theorem cyclesLeft_of_delay {g : GtaOp} {len : Nat} (hdelay : delayOf op s = some (g, len))
    (hleft : 1 < s.delayLeft len) :
    cyclesLeft op { s with dcnt := s.delayLeft len - 1 } < cyclesLeft op s := by
  have hlower : ({ s with dcnt := s.delayLeft len - 1 } : State).delayLeft len < s.delayLeft len := by
    have hne : s.delayLeft len - 1 ≠ 0 := by omega
    rw [State.delayLeft, if_neg hne]
    exact Nat.sub_lt (by omega) one_pos
  cases op with
  | resetLow | release | sampleDelay => cases hdelay; exact hlower
  | wait level =>
    simp only [delayOf] at hdelay
    split at hdelay
    · rename_i hw
      cases hdelay
      simp only [cyclesLeft, hw, if_true]
      exact Nat.add_lt_add_left hlower _
    · cases hdelay
  | setLow | setHigh | sample | transit | validate => cases hdelay

/-- The end of a poll within the budget begins one iteration less. -/
theorem cyclesLeft_of_nextIteration {level : Bool} (h : s.Inv) (hw : s.wph = true) (hends : delayEnds (.wait level) s)
    (hi : s.iter.toNat + 1 < s.cfg.timeoutIters) :
    cyclesLeft (.wait level) { s with dcnt := 0, iter := s.iter + 1, wph := false } < cyclesLeft (.wait level) s := by
  have hleft := (delayEnds_iff (pollDelay hw)).mp hends
  obtain ⟨-, -, -, hN, -⟩ := h.params
  have hiter : (s.iter.toNat + 1) % 256 = s.iter.toNat + 1 := Nat.mod_eq_of_lt (by omega)
  obtain ⟨n, hn⟩ : ∃ n, s.cfg.timeoutIters - 1 - s.iter.toNat = n + 1 :=
    ⟨s.cfg.timeoutIters - 2 - s.iter.toNat, by omega⟩
  have hn' : s.cfg.timeoutIters - 1 - (s.iter.toNat + 1) = n := by omega
  simp [cyclesLeft, hw, hleft, hiter, hn, hn', Nat.succ_mul]

/-- The cycle of an operation ends the exchange, or leaves it busy with a lower bound. -/
theorem step_lowers_bound (h : s.Inv) (hp : s.hostIn.plain = true) (hop : s.op = some op) : ∃ t, step s = .next t ∧
    (t.ended = true ∨ (∃ op', t.op = some op') ∧ t.bound < s.bound) := by
  have reach {x : State} (hgo : GoesTo s x) (hx : x.ended = true ∨ (∃ op', x.op = some op') ∧ x.bound < s.bound) :
      ∃ t, step s = .next t ∧ (t.ended = true ∨ (∃ op', t.op = some op') ∧ t.bound < s.bound) := by
    obtain ⟨t, hstep, ht⟩ := hgo
    refine ⟨t, hstep, hx.imp (fun hended => ?_) fun ⟨hopx, hlower⟩ => ?_⟩
    · exact (congrArg State.ended ht :).trans hended
    · exact ⟨(op_of_exchange ht).symm ▸ hopx, (bound_of_exchange ht).trans_lt hlower⟩
  have stays {x : State} (hst : x.st = s.st) (hix : x.stepIx = s.stepIx) (hafter : cyclesAfter x = cyclesAfter s)
      (hlower : cyclesLeft op x < cyclesLeft op s) :
      x.ended = true ∨ (∃ op', x.op = some op') ∧ x.bound < s.bound := by
    have hopx := (op_of_position hst hix).trans hop
    refine .inr ⟨⟨op, hopx⟩, ?_⟩
    rw [bound_of_op hopx, bound_of_op hop, hafter]
    exact Nat.add_lt_add_right hlower _
  cases cycle_cases h hp hop with
  | delayGoesOn hdelay hleft hgo => exact reach hgo (stays rfl rfl rfl (cyclesLeft_of_delay hdelay hleft))
  | pollEnds hwait hw hends hgo =>
    subst hwait
    obtain ⟨hi, heq⟩ | ⟨-, heq⟩ := endOfPoll_cases { s with dcnt := 0 } <;> rw [heq] at hgo
    · exact reach hgo (stays rfl rfl rfl (cyclesLeft_of_nextIteration h hw hends hi))
    · exact reach hgo (.inl rfl)
  | noMatch hwait hd hw hseen hgo =>
    subst hwait
    refine reach hgo (stays rfl rfl rfl ?_)
    simp [cyclesLeft, hw, State.delayLeft, hd, iterCyc_eq]
  | pinFault hpin hw hd hf hgo => exact reach hgo (.inl rfl)
  | validates hv hgo =>
    obtain ⟨-, heq⟩ | ⟨-, heq⟩ := validate_cases s <;> rw [heq] at hgo <;> exact reach hgo (.inl rfl)
  | completes hv hc hgo =>
    refine reach hgo (.inr ⟨?_, ?_⟩)
    · exact Option.ne_none_iff_exists'.mp (h.placed_advance_completed hop hv 0 .quiet (bitAfter op s)).legal
    · rw [bound_advance h hop hv, bound_of_op hop]
      exact Nat.lt_add_of_pos_left (cyclesLeft_pos h op)

end

/-- An exchange in progress ends within its bound, whatever the environment draws (R185). -/
theorem ends_within_bound {n : Nat} {s : State} {op : EngOp} (h : s.Inv) (hop : s.op = some op) (hn : s.bound ≤ n)
    (hp : s.plainFor n) : ∃ k t, k ≤ n ∧ runFor k s = .next t ∧ t.ended = true := by
  induction n generalizing s op with
  | zero => exact absurd (bound_pos h hop) (by omega)
  | succ n ih =>
    obtain ⟨t, hstep, hended | ⟨⟨op', hop'⟩, hlower⟩⟩ := step_lowers_bound h (hp.hostIn n.succ_pos) hop
    · exact ⟨1, t, by omega, (runFor_one s).trans hstep, hended⟩
    · obtain ⟨k, v, hk, hrun, hv⟩ := ih (stepKeepsInv _ _ h hstep) hop' (by omega) (hp.step hstep)
      exact ⟨k + 1, v, by omega, by rw [runFor, hstep, andThen_next, hrun], hv⟩

/-! ### START -/

/-- An accepted START, on the exchange (R241). -/
theorem goesTo_start {s : State} {f : Family} (h : s.Inv) (hb : s.busy = false)
    (hin : s.hostIn = ⟨false, some (startWord f)⟩) : GoesTo s (acceptStart f s) := by
  have hport : hostPort s = .next (driveData 0 (acceptStart f s)) := by
    cases f with
    | dht11 =>
      rw [hostPort_of_instr (i := .readDht11) (by rw [hin]) (by decide), exec, execReadDht11, requestStart_of_free _ hb]
    | dht22 =>
      rw [hostPort_of_instr (i := .readDht22) (by rw [hin]) (by decide), exec, execReadDht22, requestStart_of_free _ hb]
  have hstep : step s = .next (endCycle s (gtaNoRequest (driveData 0 (acceptStart f s)))) := by
    rw [step_of_rst_low (by rw [hin]), hport, andThen_next, engineAfterHost, hb]
    rfl
  exact ⟨_, hstep, exchange_gtaNoRequest (s := acceptStart f s) 0 (h.dcnt_of_free hb)⟩

/-- At START acceptance the bound is T_max (R185). -/
theorem bound_acceptStart (f : Family) (s : State) : (acceptStart f s).bound = maxCycles s.cfg f := by
  have hafter : cyclesAfter (acceptStart f s) = s.cfg.msCycles (s.cfg.resetLowMs f) + 1 +
    s.cfg.usCycles (s.cfg.releaseUs f) + 4 * s.cfg.waitCycles + 1 + s.cfg.bitsCycles 40 := rfl
  rw [bound_of_op (s := acceptStart f s) rfl, cyclesLeft, hafter]
  simp only [maxCycles, Config.msCycles, Config.usCycles, Config.bitsCycles, Config.bitTail, Config.waitCycles]
  ring

/-- Settles O41: every cycle lowers the bound until the exchange has ended, and at START acceptance the bound is
T_max. -/
theorem everyExchangeEndsWithinTmax : Obligations.EveryExchangeEndsWithinTmax := by
  refine ⟨fun f => by cases f <;> rfl, fun s f h hb hin hp => ?_⟩
  obtain ⟨u, hstep, hu⟩ := goesTo_start h hb hin
  have hop : u.op = some .setLow := (op_of_exchange hu).trans rfl
  have hbound : u.bound = maxCycles s.cfg f := (bound_of_exchange hu).trans (bound_acceptStart f s)
  rw [Nat.add_comm] at hp
  obtain ⟨k, t, hk, hrun, hended⟩ := ends_within_bound (stepKeepsInv _ _ h hstep) hop hbound.le (hp.step hstep)
  exact ⟨k, t, hk, by rw [runFor_add, runFor_one, hstep, andThen_next, hrun], hended⟩

end Sys2Proof.Machine
end

section
/-! PROOFS. An exchange that no sensor answers, phase by phase; O42. -/

namespace Sys2Proof.Machine

/-! ### Cycles without a sensor -/

/-- A block with the invariant, and n coming cycles in which the host stops nothing, the line is high and no pin fault
is drawn. -/
structure State.AloneFor (s : State) (n : Nat) : Prop where
  inv : s.Inv
  plain : s.plainFor n
  quiet : s.noSensorFor n

section
variable {m n : Nat} {s t : State}

theorem State.noSensorFor.draw (h : s.noSensorFor n) (hn : 0 < n) :
    s.draw.line = true ∧ s.draw.pinFault = false := by
  obtain ⟨hlen, hdraws⟩ := h
  unfold State.draw
  cases hq : s.envQ with
  | nil => simp [hq] at hlen; omega
  | cons d q =>
    refine hdraws d ?_
    obtain ⟨k, rfl⟩ := Nat.exists_eq_succ_of_ne_zero hn.ne'
    simp [hq]

theorem State.noSensorFor.mono (h : s.noSensorFor n) (hmn : m ≤ n) : s.noSensorFor m :=
  ⟨hmn.trans h.1, fun d hd => h.2 d (List.take_subset_take_left _ hmn hd)⟩

theorem State.noSensorFor.step (h : s.noSensorFor (n + 1)) (hstep : Machine.step s = .next t)
    (hrst : s.hostIn.rst = false) : t.noSensorFor n := by
  obtain ⟨hlen, hdraws⟩ := h
  rw [step_frame_of_rst_low hstep hrst]
  refine ⟨?_, fun d hd => hdraws d ?_⟩
  · show n ≤ (s.envQ.drop 1).length
    rw [List.length_drop]
    omega
  · have hd : d ∈ (s.envQ.drop 1).take n := hd
    rw [List.take_drop, Nat.add_comm] at hd
    exact List.mem_of_mem_drop hd

theorem State.AloneFor.mono (h : s.AloneFor n) (hmn : m ≤ n) : s.AloneFor m :=
  ⟨h.inv, h.plain.mono hmn, h.quiet.mono hmn⟩

theorem State.AloneFor.step (h : s.AloneFor (n + 1)) (hstep : Machine.step s = .next t) : t.AloneFor n :=
  ⟨stepKeepsInv _ _ h.inv hstep, h.plain.step hstep,
    h.quiet.step hstep (rst_of_plain (h.plain.hostIn n.succ_pos))⟩

theorem State.AloneFor.runFor (h : s.AloneFor (m + n)) (hrun : Machine.runFor m s = .next t) : t.AloneFor n := by
  induction m generalizing s with
  | zero =>
    cases hrun
    rwa [Nat.zero_add] at h
  | succ m ih =>
    obtain ⟨u, hu, hrun⟩ := andThen_eq_next hrun
    rw [Nat.add_right_comm] at h
    exact ih (h.step hu) hrun

/-- A run without a reset leaves the parameters alone (R7). -/
theorem State.plainFor.cfg (h : s.plainFor n) (hrun : Machine.runFor n s = .next t) : t.cfg = s.cfg := by
  induction n generalizing s with
  | zero => cases hrun; rfl
  | succ n ih =>
    obtain ⟨u, hu, hrun⟩ := andThen_eq_next hrun
    rw [ih (h.step hu) hrun, step_frame_of_rst_low hu (rst_of_plain (h.hostIn n.succ_pos))]

/-- Once the pad has been released for S cycles the level seen is the high line (R122). -/
theorem seen_of_released (h : s.AloneFor (n + 1)) (hrun : RunsThrough (fun _ u => u.padLow = false) n s t)
    (ht : t.padLow = false) (hS : s.cfg.syncStages ≤ n) : t.seen = true := by
  obtain ⟨d, rfl⟩ : ∃ d, n = d + s.cfg.syncStages := ⟨_, (Nat.sub_add_cancel hS).symm⟩
  obtain ⟨x, hx, hpad⟩ : ∃ x, runFor d s = .next x ∧ x.padLow = false := by
    by_cases h0 : s.cfg.syncStages = 0
    · have hreach := hrun.reaches
      rw [h0, Nat.add_zero] at hreach
      exact ⟨t, hreach, ht⟩
    · exact hrun.through d (by omega)
  have hreach := hrun.reaches
  rw [runFor_add, hx, andThen_next] at hreach
  have hcfg : x.cfg = s.cfg := (h.plain.mono (by omega)).cfg hx
  rw [Nat.add_assoc] at h
  have hx' := h.runFor hx
  have hrst : ∀ y ∈ x.hostQ.take x.cfg.syncStages, y.rst = false := fun y hy =>
    rst_of_plain (hx'.plain.mono (by rw [hcfg]; exact Nat.le_succ _) y hy)
  rw [← hcfg] at hreach
  rw [seenIsTheLineSCyclesAgo x t hx'.inv.syncLength hrst hreach, line_of_padReleased hpad]
  exact (hx'.quiet.draw (Nat.succ_pos _)).1

end

/-! ### The phases -/

/-- A block that has just come to a position of an exchange with family f, in the configuration c. -/
structure State.Entered (c : Config) (f : Family) (e : EngSt) (ix : BitVec 3) (s : State) : Prop where
  cfg : s.cfg = c
  fam : s.fam = f
  st : s.st = e
  stepIx : s.stepIx = ix
  iter : s.iter = 0
  wph : s.wph = false
  dcnt : s.dcnt = 0

/-- A state at a position of the exchange. -/
def HoldsAt (e : EngSt) (ix : BitVec 3) (_ : Nat) (u : State) : Prop := u.st = e ∧ u.stepIx = ix

section
variable {c : Config} {f : Family} {e e' : EngSt} {ix ix' : BitVec 3} {s t : State} {op : EngOp}

/-- An operation that completes hands over to the position that R160 names. -/
theorem entered_of_advance (hs : s.Entered c f e ix) (ht : t.exchange = (advance (s.done op)).exchange)
    (hst : (advance (s.done op)).st = e') (hix : (advance (s.done op)).stepIx = ix') : t.Entered c f e' ix' := by
  have hframe := advance_frame (s.done op)
  rw [hframe] at ht
  obtain ⟨hcfg, hst', hix', hiter, hw, -, -, hfam, -, hd⟩ := fields_of_exchange ht
  exact ⟨hcfg.trans hs.cfg, hfam.trans hs.fam, hst'.trans hst, hix'.trans hix, hiter, hw, hd⟩

/-- The operations of RESET before its wait (R166-R169). -/
theorem runs_reset (hs : s.Entered c f .reset ix) (h : s.AloneFor (cyclesOf op s)) (hop : opAt .reset ix = some op)
    (hw : op.isWait = false) : ∃ t, RunsThrough (HoldsAt .reset ix) (cyclesOf op s) s t ∧
      t.Entered c f .reset (ix + 1) := by
  have hops : s.op = some op := by rw [State.op, hs.st, hs.stepIx, hop]
  have hd := hs.dcnt
  have ht : op ≠ .transit := by rintro rfl; simpa using opAt_cases hop
  have hv : op ≠ .validate := by rintro rfl; simpa using opAt_cases hop
  have hnext : advance (s.done op) = nextStep (s.done op) := advance_of_noWait (s := s.done op) hops hw ht hv
  have arrive {t : State} (ht : t.exchange = (advance (s.done op)).exchange) : t.Entered c f .reset (ix + 1) :=
    entered_of_advance hs ht (by rw [hnext]; exact hs.st) (by rw [hnext, nextStep_stepIx, done_stepIx, hs.stepIx])
  have pin (hcost : cyclesOf op s = 1) (hc : s.draw.pinFault = false → opCompletes op s) :
      ∃ t, RunsThrough (HoldsAt .reset ix) (cyclesOf op s) s t ∧ t.Entered c f .reset (ix + 1) := by
    rw [hcost] at h ⊢
    obtain ⟨t, hstep, ht⟩ :=
      goesTo_advance h.inv (h.plain.hostIn one_pos) hops hv (hc (h.quiet.draw one_pos).2)
    exact ⟨t, .single ⟨hs.st, hs.stepIx⟩ hstep, arrive ht⟩
  have delay {g : GtaOp} (hdelay : delayOf op s = some (g, cyclesOf op s))
      (hdone : (s.done op).exchange = { s with dcnt := 0 }.exchange) :
      ∃ t, RunsThrough (HoldsAt .reset ix) (cyclesOf op s) s t ∧ t.Entered c f .reset (ix + 1) := by
    rw [← hd] at hdone
    obtain ⟨t, hrun, ht⟩ := runs_fixedDelay h.inv hops hdelay hd hw h.plain
    refine ⟨t, hrun.mono fun k _ u _ hu => ?_, arrive (ht.trans (exchange_congr exchange_advance hdone.symm))⟩
    obtain ⟨-, hst, hix, -⟩ := fields_of_exchange hu
    exact ⟨hst.trans hs.st, hix.trans hs.stepIx⟩
  cases op with
  | setLow | setHigh => exact pin rfl fun hf => ⟨hd, hf⟩
  | resetLow | release | sampleDelay => exact delay rfl (exchange_done_of_noWait h.inv hops rfl)
  | sample => exact pin rfl fun hf => ⟨hd, hf⟩
  | wait level => cases hw
  | transit => exact absurd rfl ht
  | validate => exact absurd rfl hv

/-- A wait whose first sample matches, in one cycle (R161). -/
theorem runs_match {level : Bool} (hs : s.Entered c f e ix) (h : s.AloneFor 1) (hop : s.op = some (.wait level))
    (hseen : s.seen = level) (hst : (advance (s.done (.wait level))).st = e')
    (hix : (advance (s.done (.wait level))).stepIx = ix') :
    ∃ t, RunsThrough (HoldsAt e ix) 1 s t ∧ t.Entered c f e' ix' := by
  obtain ⟨t, hstep, ht⟩ := goesTo_advance h.inv (h.plain.hostIn one_pos) hop nofun
    ⟨hs.dcnt, hs.wph, (h.quiet.draw one_pos).2, hseen⟩
  exact ⟨t, .single ⟨hs.st, hs.stepIx⟩ hstep, entered_of_advance hs ht hst hix⟩

theorem busy_of_holdsAt {k : Nat} {u : State} (he : e.busy = true) (h : HoldsAt e ix k u) : u.busy = true := by
  rw [State.busy, h.1, he]

/-- After the reset pulse the pad is released (R168). -/
theorem released_of_holdsAt {k : Nat} {u : State} (hu : u.Inv) (he : e.busy = true) (h : HoldsAt e ix k u)
    (hpos : e ≠ .reset ∨ 2 < ix.toNat) : u.padLow = false := by
  have hph := hu.phase (busy_of_holdsAt he h)
  obtain ⟨hst, hix⟩ := h
  by_contra hpad
  obtain ⟨hreset, hle⟩ := hu.padLow (by simpa using hpad)
  rw [hph, hst] at hreset
  rw [hix] at hle
  rcases hpos with hpos | hpos
  · exact hpos hreset
  · omega

end

/-- A wait for low, with the pad released for S cycles before it, sees the line high in every sample. -/
theorem noMatch_of_released {s v : State} {m : Nat} (h : s.AloneFor (m + v.cfg.waitCycles))
    (hrun : RunsThrough (fun _ x => x.padLow = false) m s v) (hop : v.op = some (.wait false)) (hst : v.st ≠ .reset)
    (hS : s.cfg.syncStages ≤ m) : NoMatchBefore v false v.cfg.timeoutIters := by
  intro i hi u hu hue
  have hv := h.runFor hrun.reaches
  have released {n k : Nat} {x : State} (hx : runFor n v = .next x) (hat : InWait v k x) : x.padLow = false := by
    obtain ⟨hxst, hxix⟩ := position_of_inWait hat
    have hpos : HoldsAt v.st v.stepIx k x := ⟨hxst, hxix⟩
    exact released_of_holdsAt (hv.inv.runFor hx) (busy_of_op hop) hpos (.inl hst)
  have hlt : i * v.cfg.iterCyc + 1 ≤ v.cfg.waitCycles := by
    have hpos : 0 < v.cfg.iterCyc := by rw [iterCyc_eq]; omega
    have hnext : (i + 1) * v.cfg.iterCyc ≤ v.cfg.waitCycles := Nat.mul_le_mul_right _ hi
    rw [Nat.succ_mul] at hnext
    omega
  have hwhole := hrun.trans (hu.mono fun k _ x hx hat => released hx hat)
  have hpad : u.padLow = false := released hu.reaches (k := i * v.cfg.iterCyc) (by
    have hpos : 0 < v.cfg.iterCyc := by rw [iterCyc_eq]; omega
    exact inWait_of_iteration (r := 0) hue hpos rfl)
  have hquiet : u.AloneFor 1 := (hv.mono hlt).runFor hu.reaches
  exact ⟨seen_of_released (h.mono (by omega)) hwhole hpad (by omega), (hquiet.quiet.draw one_pos).2⟩

/-- From the release of the line on: the release delay, W1 matching at once, and W2's iterations (R169-R171). -/
theorem runs_released {c : Config} {f : Family} {s : State} (hs : s.Entered c f .reset 3)
    (h : s.AloneFor (c.usCycles (c.releaseUs f) + 1 + c.waitCycles))
    (hS : c.syncStages ≤ c.usCycles (c.releaseUs f)) : ∃ t,
      RunsThrough (fun _ u => u.busy = true) (c.usCycles (c.releaseUs f) + 1 + c.waitCycles) s t ∧
      t.st = .failed ∧ t.result = .timeout ∧ t.stepIx = 0 ∧ t.ph = .ackWait1 ∧ t.fam = f := by
  have hcost : cyclesOf .release s = c.usCycles (c.releaseUs f) := by rw [cyclesOf, hs.cfg, hs.fam]
  generalize c.usCycles (c.releaseUs f) = rel at h hS hcost ⊢
  -- the release delay
  obtain ⟨u, hrun, hu⟩ := runs_reset (op := .release) hs (h.mono (by omega)) rfl rfl
  rw [hcost] at hrun
  have hau : u.AloneFor (1 + c.waitCycles) :=
    State.AloneFor.runFor (m := rel) (by rwa [← Nat.add_assoc]) hrun.reaches
  have hpad : RunsThrough (fun _ x => x.padLow = false) rel s u := hrun.mono fun k _ x hx hat =>
    released_of_holdsAt (h.inv.runFor hx) rfl hat (.inr (by decide))
  -- W1's first sample
  have hopu : u.op = some (.wait true) := by rw [State.op, hu.st, hu.stepIx]; rfl
  have hat : HoldsAt .reset (3 + 1) 0 u := ⟨hu.st, hu.stepIx⟩
  have hseen : u.seen = true := seen_of_released (h.mono (by omega)) hpad
    (released_of_holdsAt hau.inv rfl hat (.inr (by decide))) (by rwa [hs.cfg])
  obtain ⟨v, hrun', hv⟩ := runs_match (e' := .ackWait1) (ix' := 0) hu (hau.mono (by omega)) hopu hseen
    (by simp [advance, hu.st, hu.stepIx]) (by simp [advance, hu.st, hu.stepIx])
  have hav : v.AloneFor c.waitCycles := hau.runFor hrun'.reaches
  have hpad' := hpad.trans (hrun'.mono fun k _ x hx hat =>
    released_of_holdsAt (hau.inv.runFor hx) rfl hat (.inr (by decide)))
  -- W2
  have hopv : v.op = some (.wait false) := by rw [State.op, hv.st, hv.stepIx]; rfl
  have hno := noMatch_of_released (by rwa [hv.cfg]) hpad' hopv (by simp [hv.st]) (by rw [hs.cfg]; omega)
  have hcycles : v.cfg.timeoutIters * v.cfg.iterCyc = c.waitCycles := by rw [hv.cfg]; rfl
  have hpos : 0 < c.waitCycles := by
    obtain ⟨-, -, hN, -⟩ := hav.inv.params
    rw [← hcycles, iterCyc_eq]
    exact Nat.mul_pos hN (by omega)
  obtain ⟨t, i, hrun'', ht⟩ := runs_timeout hav.inv hopv hv.iter hv.wph (by rw [hcycles]; exact hav.plain) hno
  rw [hcycles] at hrun''
  obtain ⟨-, hst, hix, -, -, -, -, hfam, -⟩ := fields_of_exchange ht
  have hph := ph_of_timeout hav.inv hopv hpos hav.plain hrun'' hst
  have hbusy := (hrun.mono fun _ _ _ _ hat => busy_of_holdsAt rfl hat).trans
    (hrun'.mono fun _ _ _ _ hat => busy_of_holdsAt rfl hat)
  refine ⟨t, hbusy.trans (hrun''.mono fun k _ x _ hat => ?_), hst, (congrArg State.result ht :),
    hix.trans hv.stepIx, hph.trans hv.st, hfam.trans hv.fam⟩
  obtain ⟨hxst, hxix⟩ := position_of_inWait hat
  exact busy_of_op ((op_of_position hxst hxix).trans hopv)

/-- The cycles of an exchange that no sensor answers, phase by phase. -/
theorem noSensorCycles_eq (c : Config) (f : Family) : noSensorCycles c f =
    1 + c.msCycles (c.resetLowMs f) + 1 + (c.usCycles (c.releaseUs f) + 1 + c.waitCycles) := by
  simp only [noSensorCycles, Config.msCycles, Config.usCycles, Config.waitCycles]
  omega

/-- An exchange that no sensor answers, from the cycle after its START on (R165-R171, R273). -/
theorem runs_noSensor {c : Config} {f : Family} {s : State} (hs : s.Entered c f .reset 0)
    (h : s.AloneFor (noSensorCycles c f)) (hS : c.syncStages ≤ c.usCycles (c.releaseUs f)) : ∃ t,
      RunsThrough (fun _ u => u.busy = true) (noSensorCycles c f) s t ∧
      t.st = .failed ∧ t.result = .timeout ∧ t.stepIx = 0 ∧ t.ph = .ackWait1 ∧ t.fam = f := by
  rw [noSensorCycles_eq] at h ⊢
  have busy {ix : BitVec 3} {n : Nat} {x y : State} (hrun : RunsThrough (HoldsAt .reset ix) n x y) :
      RunsThrough (fun _ u => u.busy = true) n x y := hrun.mono fun _ _ _ _ hat => busy_of_holdsAt rfl hat
  obtain ⟨s1, hrun1, h1⟩ := runs_reset (op := .setLow) hs (h.mono (by rw [cyclesOf]; omega)) rfl rfl
  rw [Nat.add_assoc, Nat.add_assoc] at h
  have ha1 := h.runFor hrun1.reaches
  have hcost : cyclesOf .resetLow s1 = c.msCycles (c.resetLowMs f) := by rw [cyclesOf, h1.cfg, h1.fam]
  obtain ⟨s2, hrun2, h2⟩ := runs_reset (op := .resetLow) h1 (ha1.mono (by omega)) rfl rfl
  rw [hcost] at hrun2
  have ha2 := ha1.runFor hrun2.reaches
  obtain ⟨s3, hrun3, h3⟩ := runs_reset (op := .setHigh) h2 (ha2.mono (by rw [cyclesOf]; omega)) rfl rfl
  have ha3 := ha2.runFor hrun3.reaches
  obtain ⟨t, hrun4, ht⟩ := runs_released h3 ha3 hS
  exact ⟨t, (((busy hrun1).trans (busy hrun2)).trans (busy hrun3)).trans hrun4, ht⟩

/-- Settles O42: the phases one after another; what the failed exchange reads follows from the invariant. -/
theorem noSensorTimesOutAtW2 : Obligations.NoSensorTimesOutAtW2 := by
  intro s f h hb hin hplain hquiet hS
  obtain ⟨u, hstep, hu⟩ := goesTo_start h hb hin
  have hentered : u.Entered s.cfg f .reset 0 := by
    obtain ⟨hcfg, hst, hix, hiter, hw, -, -, hfam, -, hd⟩ := fields_of_exchange hu
    exact ⟨hcfg, hfam, hst, hix, hiter, hw, hd.trans (h.dcnt_of_free hb)⟩
  have halone : s.AloneFor (1 + noSensorCycles s.cfg f) := ⟨h, hplain, hquiet⟩
  have hreach (k : Nat) : runFor (1 + k) s = runFor k u := by rw [runFor_add, runFor_one, hstep, andThen_next]
  obtain ⟨t, hrun, hst, hresult, hix, hph, hfam⟩ :=
    runs_noSensor hentered (halone.runFor ((runFor_one s).trans hstep)) hS
  have hinv := (stepKeepsInv _ _ h hstep).runFor hrun.reaches
  refine ⟨fun k hk => ?_, t, (hreach _).trans hrun.reaches, hst, hresult, ?_, ?_, ?_, ?_, hfam, ?_⟩
  · rw [hreach]
    exact hrun.through k hk
  · rw [State.posByte, hix, hph]
    rfl
  · have hbits := hinv.bits
    rw [hph] at hbits
    exact BitVec.eq_of_toNat_eq hbits
  · exact hinv.dataHidden (by simp [hst])
  · exact hinv.pinError (by simp [hresult])
  · by_contra hpad
    obtain ⟨hreset, -⟩ := hinv.padLow (by simpa using hpad)
    simp [hph] at hreset

end Sys2Proof.Machine
end

section
/-! PROOFS. The receive register bit by bit, and a byte as the sum of its bits; O39. -/

namespace Sys2Proof.Machine

/-- A shift takes the new bit in at the bottom and moves every other bit up (R180). -/
theorem getLsbD_shiftIn (sr : BitVec 40) (b : Bool) {k : Nat} (hk : k < 40) :
    (shiftIn sr b).getLsbD k = if k = 0 then b else sr.getLsbD (k - 1) := by
  rw [shiftIn, BitVec.getLsbD_append]
  cases k with
  | zero => simp
  | succ k =>
    have hk' : k < 39 := by omega
    simp [hk']

/-- After the bits have been shifted in, the last one stands at the bottom; above them all stands what was there. -/
theorem getLsbD_foldl_shiftIn (bits : List Bool) (sr : BitVec 40) {k : Nat} (hk : k < 40) :
    (bits.foldl shiftIn sr).getLsbD k =
      if k < bits.length then bits.getD (bits.length - 1 - k) false else sr.getLsbD (k - bits.length) := by
  induction bits using List.reverseRecOn generalizing k with
  | nil => simp
  | append_singleton bits b ih =>
    rw [List.foldl_append, List.foldl_cons, List.foldl_nil, getLsbD_shiftIn _ _ hk, List.length_append,
      List.length_singleton]
    cases k with
    | zero => simp
    | succ k =>
      rw [if_neg k.succ_ne_zero, Nat.add_sub_cancel, ih (by omega)]
      by_cases hlt : k < bits.length
      · have hix : bits.length - (k + 1) < bits.length := by omega
        rw [if_pos hlt, if_pos (by omega), Nat.add_sub_cancel, List.getD_append _ _ _ _ hix, Nat.sub_sub,
          Nat.add_comm 1 k]
      · rw [if_neg hlt, if_neg (by omega), Nat.add_sub_add_right]

/-- A word is the sum of its bits, each with its weight. -/
theorem toNat_eq_sum_bits {w : Nat} (x : BitVec w) :
    x.toNat = ∑ i ∈ Finset.range w, (x.getLsbD i).toNat * 2 ^ i := by
  have low (n w : Nat) : n % 2 ^ w = ∑ i ∈ Finset.range w, (n.testBit i).toNat * 2 ^ i := by
    induction w with
    | zero => rw [pow_zero, Nat.mod_one, Finset.sum_range_zero]
    | succ w ih => rw [Finset.sum_range_succ, ← ih, Nat.mod_pow_succ, Nat.toNat_testBit, Nat.mul_comm (2 ^ w)]
  rw [← Nat.mod_eq_of_lt x.isLt, low]
  rfl

/-- Settles O39: bit k is moved up by the 39 shifts after its own, so it stands at 39 - k; a byte is eight such bits. -/
theorem fortyBitsPackMostSignificantFirst : Obligations.FortyBitsPackMostSignificantFirst := by
  intro bits hlen
  have hbit {k : Nat} (hk : k < 40) : (bits.foldl shiftIn 0).getLsbD (39 - k) = bits.getD k false := by
    rw [getLsbD_foldl_shiftIn bits 0 (by omega), hlen, if_pos (by omega)]
    congr 1
    omega
  have hbyte {j i : Nat} (hj : j < 5) (hi : i < 8) :
      (frameByte (bits.foldl shiftIn 0) j).getLsbD (7 - i) = bits.getD (8 * j + i) false := by
    have hpos : 32 - 8 * j + (7 - i) = 39 - (8 * j + i) := by omega
    rw [frameByte, BitVec.getLsbD_extractLsb', hpos, hbit (by omega)]
    simp
    omega
  refine ⟨fun k hk => hbit hk, fun j hj i hi => hbyte hj hi, fun j hj => ?_⟩
  rw [toNat_eq_sum_bits, ← Finset.sum_range_reflect]
  refine Finset.sum_congr rfl fun i hi => ?_
  have hi : i < 8 := Finset.mem_range.mp hi
  rw [show 8 - 1 - i = 7 - i from rfl, hbyte hj hi]

end Sys2Proof.Machine
end

section
/-! PROOFS. The checksum, and VALIDATE in a cycle without a host access; O44 and O45. -/

namespace Sys2Proof.Machine

/-- Settles O44: a wrapping addition of bytes is addition modulo 256, and the three reductions make one. -/
theorem checksumIsTheSumModulo256 : Obligations.ChecksumIsTheSumModulo256 := by
  intro x0 x1 x2 x3
  have hchk : (chk x0 x1 x2 x3).toNat = (((x0.toNat + x1.toNat) % 256 + x2.toNat) % 256 + x3.toNat) % 256 := by
    simp only [chk, BitVec.toNat_add]
  exact ⟨by omega, hchk⟩

/-- Five bytes put together are the frame's bytes, the first at the top (R180, R221). -/
theorem frameByte_append (f0 f1 f2 f3 f4 : Byte) :
    frameByte (f0 ++ f1 ++ f2 ++ f3 ++ f4) 0 = f0 ∧ frameByte (f0 ++ f1 ++ f2 ++ f3 ++ f4) 1 = f1 ∧
    frameByte (f0 ++ f1 ++ f2 ++ f3 ++ f4) 2 = f2 ∧ frameByte (f0 ++ f1 ++ f2 ++ f3 ++ f4) 3 = f3 ∧
    frameByte (f0 ++ f1 ++ f2 ++ f3 ++ f4) 4 = f4 := by
  have top {n : Nat} (x : BitVec n) (y : Byte) (k : Nat) : (x ++ y).extractLsb' (k + 8) 8 = x.extractLsb' k 8 := by
    refine BitVec.eq_of_getLsbD_eq fun i hi => ?_
    have hge : ¬ k + 8 + i < 8 := by omega
    have hix : k + 8 + i - 8 = k + i := by omega
    simp [BitVec.getLsbD_append, hge, hix]
  have bottom {n : Nat} (x : BitVec n) (y : Byte) : (x ++ y).extractLsb' 0 8 = y := by
    refine BitVec.eq_of_getLsbD_eq fun i hi => ?_
    simp [BitVec.getLsbD_append, hi]
  have whole (x : Byte) : x.extractLsb' 0 8 = x := BitVec.extractLsb'_eq_self
  refine ⟨?_, ?_, ?_, ?_, ?_⟩
  · exact (top _ _ 24).trans ((top _ _ 16).trans ((top _ _ 8).trans ((top _ _ 0).trans (whole f0))))
  · exact (top _ _ 16).trans ((top _ _ 8).trans ((top _ _ 0).trans (bottom _ f1)))
  · exact (top _ _ 8).trans ((top _ _ 0).trans (bottom _ f2))
  · exact (top _ _ 0).trans (bottom _ f3)
  · exact bottom _ f4

/-- VALIDATE on a frame given byte by byte (R221). -/
theorem validate_of_frame {s : State} {f0 f1 f2 f3 f4 : Byte} (hsr : s.sr = f0 ++ f1 ++ f2 ++ f3 ++ f4) :
    validate s = if chk f0 f1 f2 f3 = f4 then { s with data := ⟨f0, f1, f2, f3⟩, result := .ok, st := .done }
      else failExchange .checksumMismatch s := by
  obtain ⟨h0, h1, h2, h3, h4⟩ := frameByte_append f0 f1 f2 f3 f4
  rw [← hsr] at h0 h1 h2 h3 h4
  rw [validate, h0, h1, h2, h3, h4]

/-- Settles O45: VALIDATE asks for no primitive, and with no delay running the GTA idles; the comparison decides. -/
theorem validateComparesAndCommits : Obligations.ValidateComparesAndCommits := by
  intro s f0 f1 f2 f3 f4 hin hst hix hd hsr
  have hop : s.op = some .validate := by simp [State.op, opAt, hst, hix]
  have hgta : gtaNoRequest (driveData 0 s) = { driveData 0 s with gtaReq := 0, gtaRsp := .quiet } := if_pos hd
  rw [step_of_hostIn_quiet hin (busy_of_op hop), engineCycle_of_op (s := driveData 0 s) hop, runOp, hgta, andThen_next,
    validate_of_frame (by exact hsr)]
  constructor
  · intro hfits
    rw [if_pos hfits]
    rfl
  · intro hfails
    rw [if_neg hfails]
    rfl

end Sys2Proof.Machine
end

section
/-! PROOFS. What the vector sensor's waveform is of the line, cycle by cycle from the release time on, and what a block
that hears it sees; towards O43. -/

namespace Sys2Proof.Machine

/-! ### The waveform -/

/-- From point a on the line w goes through the segments one after another, in cycles. -/
def Follows (w : Nat → Bool) : Nat → List (Bool × Nat) → Prop
  | _, [] => True
  | a, (l, d) :: segs => (∀ x, a ≤ x → x < a + d → w x = l) ∧ Follows w (a + d) segs

/-- The levels of a frame's waveform, one a cycle (R141). -/
def waveform (c : Config) (t : SensorTiming) (frame : BitVec 40) : List Bool :=
  (sensorSegments t frame).flatMap fun seg => List.replicate (seg.2 * c.cycPerUs) seg.1

/-- The line x cycles after the release time: the waveform, then high (R141, R143). -/
def answerLevel (c : Config) (t : SensorTiming) (frame : BitVec 40) (x : Nat) : Bool := (waveform c t frame).getD x true

/-- A line that shows the levels of the segments follows them. -/
theorem follows_of_levels {w : Nat → Bool} {a : Nat} {segs : List (Bool × Nat)}
    (h : ∀ x l, (segs.flatMap fun seg => List.replicate seg.2 seg.1)[x]? = some l → w (a + x) = l) :
    Follows w a segs := by
  induction segs generalizing a with
  | nil => trivial
  | cons seg segs ih =>
    obtain ⟨l, d⟩ := seg
    rw [List.flatMap_cons] at h
    refine ⟨fun x hax hxd => ?_, ih fun x l' hx => ?_⟩
    · have hlevel := h (x - a) l (by
        rw [List.getElem?_append_left (by rw [List.length_replicate]; omega), List.getElem?_replicate_of_lt (by omega)])
      rwa [Nat.add_sub_cancel' hax] at hlevel
    · rw [Nat.add_assoc]
      refine h (d + x) l' ?_
      rw [List.getElem?_append_right (by simp), List.length_replicate, Nat.add_sub_cancel_left, hx]

/-- In VC, a cycle a microsecond, the sensor's answer follows its segments. -/
theorem follows_answerLevel (t : SensorTiming) (frame : BitVec 40) :
    Follows (answerLevel .vc t frame) 0 (sensorSegments t frame) := by
  have hvc : waveform .vc t frame = (sensorSegments t frame).flatMap fun seg => List.replicate seg.2 seg.1 := by
    have hC (d : Nat) : d * Config.vc.cycPerUs = d := Nat.mul_one d
    simp only [waveform, hC]
  refine follows_of_levels fun x l hx => ?_
  rw [Nat.zero_add, answerLevel, hvc, List.getD_eq_getElem?_getD, hx, Option.getD_some]

/-- How long a bit's high is in the vector sensor's waveform (R142). -/
def bitHigh (b : Bool) : Nat := if b then 70 else 27

/-- The vector sensor's segments for a list of bits, and its final low (R141, R142). -/
def bitSegments (frame : List Bool) : List (Bool × Nat) :=
  frame.flatMap (fun b => [(false, 50), (true, bitHigh b)]) ++ [(false, 50)]

/-- The bits of a frame in the order of their transmission (R180). -/
def frameBits (frame : BitVec 40) : List Bool := (List.range 40).map fun k => frame.getLsbD (39 - k)

theorem vector_segments (frame : BitVec 40) : sensorSegments .vector frame =
    [(true, 30), (false, 80), (true, 80)] ++ bitSegments (frameBits frame) := by
  rw [bitSegments, frameBits, List.flatMap_map, ← List.append_assoc]
  rfl

theorem follows_bitSegments_cons {w : Nat → Bool} {a : Nat} {b : Bool} {frame : List Bool} :
    Follows w a (bitSegments (b :: frame)) ↔ (∀ x, a ≤ x → x < a + 50 → w x = false) ∧
      (∀ x, a + 50 ≤ x → x < a + 50 + bitHigh b → w x = true) ∧ Follows w (a + 50 + bitHigh b) (bitSegments frame) :=
  Iff.rfl

/-- Every bit begins with a low, and so does what follows the last one. -/
theorem low_of_follows {w : Nat → Bool} {a : Nat} {frame : List Bool} (h : Follows w a (bitSegments frame)) :
    ∀ x, a ≤ x → x < a + 50 → w x = false := by
  cases frame <;> exact h.1

/-- Shifted in one after another, the bits of a frame are the frame (R180, R181). -/
theorem foldl_frameBits (frame : BitVec 40) : (frameBits frame).foldl shiftIn 0 = frame := by
  obtain ⟨hbit, -⟩ := fortyBitsPackMostSignificantFirst (frameBits frame) (by simp [frameBits])
  refine BitVec.eq_of_getLsbD_eq fun i hi => ?_
  have hix : 39 - (39 - i) = i := by omega
  have hlt : 39 - i < 40 := by omega
  have h := hbit (39 - i) hlt
  rw [hix] at h
  rw [h]
  simp [frameBits, List.getD_eq_getElem?_getD, List.getElem?_map, List.getElem?_range hlt, hix]

/-- A draw without a pin fault. -/
def quietDraw (level : Bool) : EnvDraw := ⟨level, false, 0⟩

/-- The sensor's draws, one by one: high until the release time, then its answer (R141, R143). -/
theorem getElem?_sensorDraws (c : Config) (f : Family) (t : SensorTiming) (frame : BitVec 40) {i n : Nat} (hi : i < n) :
    (sensorDraws c f t frame n)[i]? = some (quietDraw (if i < 3 + c.msCycles (c.resetLowMs f) then true
      else answerLevel c t frame (i - (3 + c.msCycles (c.resetLowMs f))))) := by
  have hlevels : sensorDraws c f t frame n = ((List.replicate (3 + c.msCycles (c.resetLowMs f)) true ++
    waveform c t frame ++ List.replicate n true).take n).map quietDraw := rfl
  rw [hlevels]
  generalize 3 + c.msCycles (c.resetLowMs f) = r
  rw [List.getElem?_map, List.getElem?_take_of_lt hi, List.append_assoc]
  split
  · rw [List.getElem?_append_left (by rwa [List.length_replicate]), List.getElem?_replicate_of_lt ‹_›]
    rfl
  · rw [List.getElem?_append_right (by rw [List.length_replicate]; omega), List.length_replicate, answerLevel]
    by_cases hlt : i - r < (waveform c t frame).length
    · rw [List.getElem?_append_left hlt, List.getD_eq_getElem _ _ hlt, List.getElem?_eq_getElem hlt]
      rfl
    · rw [List.getElem?_append_right (by omega), List.getElem?_replicate_of_lt (by omega),
        List.getD_eq_default _ _ (by omega)]
      rfl

/-! ### Hearing it -/

/-- A block with the invariant, and n coming cycles in which the host stops nothing, the line is w and no pin fault is
drawn. -/
structure State.Hears (w : Nat → Bool) (n : Nat) (s : State) : Prop where
  inv : s.Inv
  plain : s.plainFor n
  draws : ∀ i < n, s.envQ[i]? = some (quietDraw (w i))

/-- m cycles with the pad released lead from s to t. -/
def Released (m : Nat) (s t : State) : Prop := RunsThrough (fun _ u => u.padLow = false) m s t

/-- A run without a reset uses up one draw a cycle. -/
theorem State.plainFor.envQ {m : Nat} {s t : State} (h : s.plainFor m) (hrun : Machine.runFor m s = .next t) :
    t.envQ = s.envQ.drop m := by
  induction m generalizing s with
  | zero => cases hrun; rfl
  | succ m ih =>
    obtain ⟨u, hu, hrun⟩ := andThen_eq_next hrun
    rw [ih (h.step hu) hrun, step_frame_of_rst_low hu (rst_of_plain (h.hostIn m.succ_pos)), List.drop_drop, Nat.add_comm]

section
variable {w : Nat → Bool} {m n p : Nat} {s t : State}

theorem State.Hears.runFor (h : s.Hears w n) (hrun : Machine.runFor m s = .next t) (hm : m ≤ n) :
    t.Hears (fun i => w (m + i)) (n - m) := by
  have hplain : s.plainFor (m + (n - m)) := by rw [Nat.add_sub_cancel' hm]; exact h.plain
  refine ⟨h.inv.runFor hrun, hplain.runFor hrun, fun i hi => ?_⟩
  rw [(h.plain.mono hm).envQ hrun, List.getElem?_drop]
  exact h.draws (m + i) (by omega)

/-- A line that stays high is a line that no sensor drives. -/
theorem State.Hears.alone (h : s.Hears w n) (hm : m ≤ n) (hw : ∀ i < m, w i = true) : s.AloneFor m := by
  refine ⟨h.inv, h.plain.mono hm, ?_, fun d hd => ?_⟩
  · by_contra hlt
    have hnone := h.draws s.envQ.length (by omega)
    simp at hnone
  · obtain ⟨i, hi⟩ := List.mem_iff_getElem?.mp hd
    have him : i < m := by
      by_contra hge
      rw [List.getElem?_take_eq_none (by omega)] at hi
      cases hi
    rw [List.getElem?_take_of_lt him, h.draws i (by omega)] at hi
    cases hi
    exact ⟨hw i him, rfl⟩

theorem State.Hears.draw (h : s.Hears w n) (hn : 0 < n) : s.draw = quietDraw (w 0) := by
  have hfirst := h.draws 0 hn
  unfold State.draw
  cases hq : s.envQ with
  | nil => simp [hq] at hfirst
  | cons d q => simpa [hq] using hfirst

theorem State.Hears.noFault (h : s.Hears w n) (hrun : Machine.runFor m s = .next t) (hm : m < n) :
    t.draw.pinFault = false := by
  rw [(h.runFor hrun hm.le).draw (by omega)]
  rfl

theorem State.Hears.hostIn (h : s.Hears w n) (hrun : Machine.runFor m s = .next t) (hm : m < n) :
    t.hostIn.plain = true :=
  (State.plainFor.runFor (h.plain.mono hm) hrun).hostIn one_pos

/-- In VC the level seen is the line of two cycles ago (R122). -/
theorem State.Hears.seen (h : s.Hears w n) (hcfg : s.cfg = .vc) (hrun : Released (p + 2) s t) (hp : p + 2 ≤ n) :
    t.seen = w p := by
  obtain ⟨x, hx, hpad⟩ := hrun.through p (by omega)
  have hearsx := h.runFor hx (by omega)
  have hcfgx : x.cfg = .vc := ((h.plain.mono (by omega)).cfg hx).trans hcfg
  have hS : x.cfg.syncStages = 2 := by rw [hcfgx]; rfl
  have hreach := hrun.reaches
  rw [runFor_add, hx, andThen_next] at hreach
  have hrst : ∀ y ∈ x.hostQ.take x.cfg.syncStages, y.rst = false := fun y hy =>
    rst_of_plain ((hearsx.plain.mono (by omega)) y hy)
  rw [← hS] at hreach
  rw [seenIsTheLineSCyclesAgo x t hearsx.inv.syncLength hrst hreach, line_of_padReleased hpad,
    hearsx.draw (by omega)]
  rfl

end

end Sys2Proof.Machine
end

section
/-! PROOFS. An exchange with the vector sensor in VC, phase by phase: the acknowledgement, then each bit, then VALIDATE;
O43. -/

namespace Sys2Proof.Machine

/-! ### Positions -/

/-- A block that has just come to a position of an exchange in VC, with the bits received so far. -/
structure State.Receiving (f : Family) (e : EngSt) (ix : BitVec 3) (count : BitVec 6) (bits : BitVec 40) (s : State) :
    Prop where
  entered : s.Entered .vc f e ix
  bitcnt : s.bitcnt = count
  sr : s.sr = bits

section
variable {f : Family} {e : EngSt} {ix : BitVec 3} {count : BitVec 6} {bits : BitVec 40} {s t u : State}

theorem State.Receiving.op (h : s.Receiving f e ix count bits) : s.op = opAt e ix := by
  rw [State.op, h.entered.st, h.entered.stepIx]

theorem State.Receiving.busy {op : EngOp} (h : s.Receiving f e ix count bits) (hop : opAt e ix = some op) :
    e.busy = true := by
  have hb := busy_of_op (h.op.trans hop)
  rwa [State.busy, h.entered.st] at hb

theorem State.Receiving.of_exchange (h : s.Receiving f e ix count bits) (ht : t.exchange = s.exchange) :
    t.Receiving f e ix count bits := by
  obtain ⟨⟨hcfg, hfam, hst, hix, hiter, hw, hd⟩, hbitcnt, hsr⟩ := h
  obtain ⟨tcfg, tst, tix, titer, tw, tbitcnt, tsr, tfam, -, td⟩ := fields_of_exchange ht
  exact ⟨⟨tcfg.trans hcfg, tfam.trans hfam, tst.trans hst, tix.trans hix, titer.trans hiter, tw.trans hw, td.trans hd⟩,
    tbitcnt.trans hbitcnt, tsr.trans hsr⟩

theorem State.Receiving.enter (h : s.Receiving f e ix count bits) (e' : EngSt) :
    (enter e' s).Receiving f e' 0 count bits :=
  ⟨⟨h.entered.cfg, h.entered.fam, rfl, rfl, h.entered.iter, h.entered.wph, h.entered.dcnt⟩, h.bitcnt, h.sr⟩

theorem State.Receiving.nextStep (h : s.Receiving f e ix count bits) :
    (nextStep s).Receiving f e (ix + 1) count bits :=
  ⟨⟨h.entered.cfg, h.entered.fam, h.entered.st, by rw [nextStep_stepIx, h.entered.stepIx], h.entered.iter,
    h.entered.wph, h.entered.dcnt⟩, h.bitcnt, h.sr⟩

/-- A completed operation leaves the bits received alone. -/
theorem State.Receiving.done (h : s.Receiving f e ix count bits) (op : EngOp) :
    (s.done op).Receiving f e ix count bits :=
  ⟨⟨h.entered.cfg, h.entered.fam, h.entered.st, h.entered.stepIx, rfl, rfl, rfl⟩, h.bitcnt, h.sr⟩

/-- The position that R160 names after an operation, but for a bit's closing wait. -/
def nextPosition (e : EngSt) (ix : BitVec 3) : EngSt × BitVec 3 :=
  match e, ix.toNat with
  | .reset, 4 => (.ackWait1, 0)
  | .ackWait1, 2 => (.ackWait2, 0)
  | .ackWait2, _ => (.bitLoop, 0)
  | _, _ => (e, ix + 1)

theorem nextPosition_within_a_state (h : (e = .reset ∧ ix.toNat < 4) ∨ (e = .ackWait1 ∧ ix.toNat < 2) ∨
    (e = .bitLoop ∧ ix.toNat < 3)) : nextPosition e ix = (e, ix + 1) := by
  obtain ⟨rfl, hix⟩ | ⟨rfl, hix⟩ | ⟨rfl, hix⟩ := h <;> revert ix <;> decide

/-- A completed operation that commits no bit leaves the bits as they are (R160). -/
theorem State.Receiving.advance {op : EngOp} {next : EngSt × BitVec 3} (h : s.Receiving f e ix count bits)
    (hop : opAt e ix = some op) (hv : op ≠ .validate) (hbit : e = .bitLoop → ix ≠ 3)
    (hnext : nextPosition e ix = next) : (advance s).Receiving f next.1 next.2 count bits := by
  obtain rfl := h.entered.st
  obtain rfl := h.entered.stepIx
  subst hnext
  obtain ⟨hst, hix, -, heq⟩ | ⟨hst, hix, -, heq⟩ | ⟨hst, hix, -, heq⟩ | ⟨hst, hix, -, -⟩ | ⟨hpos, heq⟩ :=
    advance_cases hop hv
  · rw [heq, hst, hix]
    exact h.enter _
  · rw [heq, hst, hix]
    exact h.enter _
  · rw [heq, hst, hix]
    exact h.enter _
  · exact absurd hix (hbit hst)
  · rw [heq, nextPosition_within_a_state hpos]
    exact h.nextStep

/-- Where the engine stands between two bits: at the next one, or at VALIDATE after the fortieth (R182). -/
def betweenBits (count : BitVec 6) : EngSt := if count.toNat = 40 then .validate else .bitLoop

/-- A committed bit (R179, R180). -/
theorem State.Receiving.commitBit (h : s.Receiving f e ix count bits) (hcount : count.toNat < 40) :
    (commitBit s).Receiving f (betweenBits (count + 1)) 0 (count + 1) (shiftIn bits s.b) := by
  obtain ⟨⟨hcfg, hfam, -, -, hiter, hw, hd⟩, hbitcnt, hsr⟩ := h
  have hnext : (count + 1).toNat = count.toNat + 1 := by bv_omega
  subst hbitcnt hsr
  obtain ⟨h40, heq⟩ | ⟨h40, heq⟩ := commitBit_cases s <;> rw [heq, betweenBits, hnext]
  · exact ⟨⟨hcfg, hfam, (if_pos h40).symm, rfl, hiter, hw, hd⟩, rfl, rfl⟩
  · exact ⟨⟨hcfg, hfam, (if_neg h40).symm, rfl, hiter, hw, hd⟩, rfl, rfl⟩

/-- Before the bit loop no bit has been received (R174). -/
theorem State.Entered.receiving (hs : s.Entered .vc f e ix) (h : s.Inv) (he : e.busy = true)
    (hbits : ∀ n, bitsInPhase e n → n = 0) : s.Receiving f e ix 0 0 := by
  have hb : s.busy = true := by rw [State.busy, hs.st, he]
  have hinv := h.bits
  rw [h.phase hb, hs.st] at hinv
  have hcount : s.bitcnt.toNat = 0 := hbits _ hinv
  have hsr := h.shiftRegister
  rw [hcount] at hsr
  exact ⟨hs, BitVec.eq_of_toNat_eq hcount, BitVec.eq_of_toNat_eq (Nat.lt_one_iff.mp hsr)⟩

/-- Cycles at a position past the reset pulse are cycles with the pad released (R168). -/
theorem released_run {k : Nat} (hs : s.Inv) (he : e.busy = true) (hpos : e ≠ .reset ∨ 2 < ix.toNat)
    (hrun : RunsThrough (HoldsAt e ix) k s t) : Released k s t :=
  hrun.mono fun _ _ _ hu hat => released_of_holdsAt (hs.runFor hu) he hat hpos

end

/-! ### The operations after the release of the line -/

section
variable {w : Nat → Bool} {n p : Nat} {f : Family} {e : EngSt} {ix : BitVec 3} {count : BitVec 6} {bits : BitVec 40}
  {s t : State} {op : EngOp}
variable (h : s.Hears w n) (hcfg : s.cfg = .vc)
include h hcfg

/-- A wait through the iterations before its match, and the match: iteration i sees the line at p + 2i (R161, R162). -/
theorem runs_waitIterations {level : Bool} {j : Nat} (hrun : Released (p + 2) s t)
    (ht : t.Receiving f e ix count bits) (hop : opAt e ix = some (.wait level)) (hpos : e ≠ .reset ∨ 2 < ix.toNat)
    (hj : j < 100) (hbefore : ∀ i < j, w (p + i * 2) = !level) (hat : w (p + j * 2) = level)
    (hn : p + j * 2 + 3 ≤ n) :
    ∃ u, Released (p + j * 2 + 1 + 2) s u ∧ u.exchange = (advance t).exchange := by
  have hopt : t.op = some (.wait level) := ht.op.trans hop
  obtain ⟨htc, -, hst, hix, hiter, hw, hd⟩ := ht.entered
  have hinv := h.inv.runFor hrun.reaches
  have hplain := (h.runFor hrun.reaches (by omega)).plain
  have hcyc : t.cfg.iterCyc = 2 := by rw [htc]; rfl
  have hN : t.cfg.timeoutIters = 100 := by rw [htc]; rfl
  have hbusy := ht.busy hop
  have later {i : Nat} {u : State} (hu : RunsThrough (InWait t) (i * t.cfg.iterCyc) t u) :
      Released (p + i * 2 + 2) s u := by
    rw [hcyc] at hu
    have hat : RunsThrough (HoldsAt e ix) (i * 2) t u := hu.mono fun k _ x _ hx => by
      obtain ⟨hxst, hxix⟩ := position_of_inWait hx
      exact ⟨hxst.trans hst, hxix.trans hix⟩
    rw [Nat.add_right_comm]
    exact hrun.trans (released_run hinv hbusy hpos hat)
  obtain ⟨u, hu, hue⟩ := runs_iterations hinv hopt hiter hw (j := j) (by omega)
    (hplain.mono (by rw [hcyc]; omega)) fun i hi x hx _ => by
      have hxs := later hx
      exact ⟨(h.seen hcfg hxs (by omega)).trans (hbefore i hi), h.noFault hxs.reaches (by omega)⟩
  have hus := later hu
  have hopu : u.op = some (.wait level) := (op_of_exchange hue).trans hopt
  obtain ⟨-, hust, huix, -, hwu, -, -, -, -, hdu⟩ := fields_of_exchange hue
  obtain ⟨v, hstep, hv⟩ := goesTo_advance (h.inv.runFor hus.reaches) (h.hostIn hus.reaches (by omega)) hopu nofun
    ⟨hdu.trans hd, hwu.trans hw, h.noFault hus.reaches (by omega), (h.seen hcfg hus (by omega)).trans hat⟩
  have hlast : RunsThrough (HoldsAt e ix) 1 u v := .single ⟨hust.trans hst, huix.trans hix⟩ hstep
  refine ⟨v, ?_, hv.trans (exchange_congr exchange_advance (exchange_done_atIteration hue hiter hw hd))⟩
  exact hus.trans (released_run (h.inv.runFor hus.reaches) hbusy hpos hlast)

/-- A wait for an edge of the line that is to come, or has come: it matches at the edge or in the cycle after it, since
an iteration takes two cycles (R162). -/
theorem runs_waitForEdge {level : Bool} {edge : Nat} (hrun : Released (p + 2) s t)
    (ht : t.Receiving f e ix count bits) (hop : opAt e ix = some (.wait level)) (hpos : e ≠ .reset ∨ 2 < ix.toNat)
    (hedge : p ≤ edge) (hnear : edge < p + 100) (hbefore : ∀ x, p ≤ x → x < edge → w x = !level)
    (hat : ∀ x, edge ≤ x → x < edge + 2 → w x = level) (hn : edge + 4 ≤ n) :
    ∃ q u, edge < q ∧ q ≤ edge + 2 ∧ Released (q + 2) s u ∧ u.exchange = (advance t).exchange := by
  obtain ⟨u, hu, hue⟩ := runs_waitIterations h hcfg (j := (edge + 1 - p) / 2) hrun ht hop hpos (by omega)
    (fun i hi => hbefore _ (by omega) (by omega)) (hat _ (by omega) (by omega)) (by omega)
  exact ⟨_, u, by omega, by omega, hu, hue⟩

/-- A wait that commits no bit: it leads to the next position in the cycle after its edge, or in the one after that. -/
theorem runs_edge {level : Bool} (edge : Nat) {next : EngSt × BitVec 3} (hrun : Released (p + 2) s t)
    (ht : t.Receiving f e ix count bits) (hop : opAt e ix = some (.wait level)) (hpos : e ≠ .reset ∨ 2 < ix.toNat)
    (hbit : e = .bitLoop → ix ≠ 3) (hnext : nextPosition e ix = next) (hedge : p ≤ edge) (hnear : edge < p + 100)
    (hbefore : ∀ x, p ≤ x → x < edge → w x = !level) (hat : ∀ x, edge ≤ x → x < edge + 2 → w x = level)
    (hn : edge + 4 ≤ n) : ∃ q u, edge < q ∧ q ≤ edge + 2 ∧ Released (q + 2) s u ∧
      u.Receiving f next.1 next.2 count bits := by
  obtain ⟨q, u, hq, hq', hu, hue⟩ := runs_waitForEdge h hcfg hrun ht hop hpos hedge hnear hbefore hat hn
  exact ⟨q, u, hq, hq', hu, (ht.advance hop nofun hbit hnext).of_exchange hue⟩

omit hcfg in
/-- An operation that takes one cycle and is no wait. -/
theorem runs_single (hrun : Released (p + 2) s t) (ht : t.Receiving f e ix count bits) (hop : opAt e ix = some op)
    (he : e ≠ .reset) (hv : op ≠ .validate) (hc : opCompletes op t) (hn : p + 3 ≤ n) :
    ∃ u, Released (p + 1 + 2) s u ∧ u.exchange = (advance (t.done op)).exchange := by
  have hinv := h.inv.runFor hrun.reaches
  obtain ⟨u, hstep, hu⟩ := goesTo_advance hinv (h.hostIn hrun.reaches (by omega)) (ht.op.trans hop) hv hc
  have hrun' := released_run hinv (ht.busy hop) (.inl he) (.single ⟨ht.entered.st, ht.entered.stepIx⟩ hstep)
  exact ⟨u, hrun.trans hrun', hu⟩

/-! ### A bit -/

/-- From a bit's low to its sample: the rise, the sample delay, and the sample 36 cycles after the rise was seen. -/
theorem runs_toSample {a : Nat} (hrun : Released (p + 2) s t) (ht : t.Receiving f .bitLoop 0 count bits)
    (hp : a ≤ p) (hpa : p ≤ a + 48) (hn : a + 100 ≤ n) (hlow : ∀ x, a ≤ x → x < a + 50 → w x = false)
    (hrise : ∀ x, a + 50 ≤ x → x < a + 52 → w x = true) :
    ∃ q u, a + 86 ≤ q ∧ q ≤ a + 87 ∧ Released (q + 1 + 2) s u ∧ u.Receiving f .bitLoop 3 count bits ∧ u.b = w q := by
  -- the rise
  obtain ⟨q, t1, hq, hq', hrun1, h1⟩ := runs_edge h hcfg (a + 50) hrun ht rfl (.inl nofun) (by decide) rfl (by omega)
    (by omega) (fun x hx hx' => hlow x (by omega) hx') hrise (by omega)
  -- the sample delay
  have hinv1 := h.inv.runFor hrun1.reaches
  have hlen : t1.cfg.usCycles t1.cfg.sampleDelayUs = 35 := by rw [h1.entered.cfg]; rfl
  have hplain : t1.plainFor (t1.cfg.usCycles t1.cfg.sampleDelayUs) :=
    (h.runFor hrun1.reaches (by omega)).plain.mono (by omega)
  obtain ⟨t2, hdelay, he2⟩ := runs_fixedDelay hinv1 h1.op rfl h1.entered.dcnt rfl hplain
  have hrun2 : Released (q + 35 + 2) s t2 := by
    rw [hlen] at hdelay
    rw [Nat.add_right_comm]
    refine hrun1.trans (released_run (e := .bitLoop) (ix := 1) hinv1 rfl (.inl nofun) (hdelay.mono fun _ _ x _ hx => ?_))
    obtain ⟨-, hst, hix, -⟩ := fields_of_exchange hx
    exact ⟨hst.trans h1.entered.st, hix.trans h1.entered.stepIx⟩
  have h2 : t2.Receiving f .bitLoop 2 count bits := (h1.advance rfl nofun (by decide) rfl).of_exchange he2
  -- the sample
  obtain ⟨t3, hrun3, he3⟩ := runs_single h hrun2 h2 rfl nofun nofun
    ⟨h2.entered.dcnt, h.noFault hrun2.reaches (by omega)⟩ (by omega)
  have hb : t3.b = (t2.done .sample).b := by
    rw [advance_of_noWait (s := t2.done .sample) h2.op rfl nofun nofun] at he3
    exact (congrArg State.b he3 :)
  exact ⟨q + 35, t3, by omega, by omega, hrun3,
    ((h2.done .sample).advance (op := .sample) rfl nofun (by decide) rfl).of_exchange he3,
    hb.trans (h.seen hcfg hrun2 (by omega))⟩

/-- A bit, from its low into the low after it. The sample sees the line 86 or 87 cycles after the bit's low began: within
the high of a 1 bit, and within the low that follows the shorter high of a 0 bit (R175-R180, R324). -/
theorem runs_bit {a : Nat} (b : Bool) (hrun : Released (p + 2) s t) (ht : t.Receiving f .bitLoop 0 count bits)
    (hcount : count.toNat < 40) (hp : a ≤ p) (hpa : p ≤ a + 48) (hn : a + 200 ≤ n)
    (hlow : ∀ x, a ≤ x → x < a + 50 → w x = false)
    (hhigh : ∀ x, a + 50 ≤ x → x < a + 50 + bitHigh b → w x = true)
    (hnext : ∀ x, a + 50 + bitHigh b ≤ x → x < a + 50 + bitHigh b + 50 → w x = false) :
    ∃ q u, a + 50 + bitHigh b ≤ q ∧ q ≤ a + 50 + bitHigh b + 48 ∧ Released (q + 2) s u ∧
      u.Receiving f (betweenBits (count + 1)) 0 (count + 1) (shiftIn bits b) := by
  have hlen : b = true ∧ bitHigh b = 70 ∨ b = false ∧ bitHigh b = 27 := by cases b <;> simp [bitHigh]
  generalize bitHigh b = len at hlen hhigh hnext ⊢
  obtain ⟨q, t1, hq, hq', hrun1, h1, hb⟩ :=
    runs_toSample h hcfg hrun ht hp hpa (by omega) hlow fun x hx hx' => hhigh x hx (by omega)
  have hsample : w q = b := by
    obtain ⟨rfl, rfl⟩ | ⟨rfl, rfl⟩ := hlen
    · exact hhigh q (by omega) (by omega)
    · exact hnext q (by omega) (by omega)
  obtain ⟨q', u, hfall, hfall', hrun2, he2⟩ := runs_waitForEdge h hcfg hrun1 h1 rfl (.inl nofun)
    (edge := max (q + 1) (a + 50 + len)) (by omega) (by omega) (fun x hx hx' => hhigh x (by omega) (by omega))
    (fun x hx hx' => hnext x (by omega) (by omega)) (by omega)
  have hcommit : advance t1 = commitBit t1 := by simp [advance, h1.entered.st, h1.entered.stepIx]
  refine ⟨q', u, by omega, by omega, hrun2, ?_⟩
  rw [← hsample, ← hb]
  exact (h1.commitBit hcount).of_exchange (by rw [he2, hcommit])

/-! ### The frame -/

/-- The bits one after another, up to VALIDATE (R175-R182). -/
theorem runs_bits {a : Nat} {frame : List Bool} (hrun : Released (p + 2) s t)
    (ht : t.Receiving f (betweenBits count) 0 count bits) (hcount : count.toNat + frame.length = 40) (hp : a ≤ p)
    (hpa : p ≤ a + 48) (hn : a + 120 * frame.length + 200 ≤ n) (hw : Follows w a (bitSegments frame)) :
    ∃ q u, q ≤ a + 120 * frame.length + 48 ∧ Released (q + 2) s u ∧
      u.Receiving f .validate 0 40 (frame.foldl shiftIn bits) := by
  induction frame generalizing a p count bits t with
  | nil =>
    obtain rfl : count = 40 := BitVec.eq_of_toNat_eq hcount
    exact ⟨p, t, by simpa using hpa, hrun, ht⟩
  | cons b frame ih =>
    rw [List.length_cons] at hcount hn ⊢
    obtain ⟨hlow, hhigh, hw⟩ := follows_bitSegments_cons.mp hw
    have hloop : betweenBits count = .bitLoop := if_neg (by omega)
    rw [hloop] at ht
    have hlen : bitHigh b ≤ 70 := by cases b <;> decide
    obtain ⟨q, u, hq, hq', hrun1, hu⟩ :=
      runs_bit h hcfg b hrun ht (by omega) hp hpa (by omega) hlow hhigh (low_of_follows hw)
    have hcount' : (count + 1).toNat = count.toNat + 1 := by bv_omega
    obtain ⟨q', v, hqv, hrun2, hv⟩ := ih hrun1 hu (by omega) hq hq' (by omega) hw
    exact ⟨q', v, by omega, hrun2, hv⟩

end

/-! ### The acknowledgement -/

/-- From the release of the line to the first bit: the release delay, W1 in the high before the answer, W2 to W4 at the
edges of the acknowledgement, and the transit (R169-R174). -/
theorem runs_acknowledged {w : Nat → Bool} {n : Nat} {f : Family} {frame : List Bool} {s : State} (h : s.Hears w n)
    (hs : s.Entered .vc f .reset 3) (hn : 300 ≤ n)
    (hw : Follows w 0 ([(true, 30), (false, 80), (true, 80)] ++ bitSegments frame)) :
    ∃ p t, 190 ≤ p ∧ p ≤ 194 ∧ Released (p + 2) s t ∧ t.Receiving f .bitLoop 0 0 0 := by
  obtain ⟨hresponse, hackLow, hackHigh, hbits⟩ := hw
  have hfall := low_of_follows hbits
  -- the release delay
  have hcost : cyclesOf .release s = 18 + 2 := by rw [cyclesOf, hs.cfg, hs.fam]; cases f <;> rfl
  obtain ⟨t0, hrun0, h0⟩ := runs_reset (op := .release) hs
    (h.alone (by omega) fun i hi => hresponse i i.zero_le (by omega)) rfl rfl
  rw [hcost] at hrun0
  have hrel : Released (18 + 2) s t0 := released_run h.inv rfl (.inr (by decide)) hrun0
  have h0 : t0.Receiving f .reset 4 0 0 := State.Entered.receiving h0 (h.inv.runFor hrel.reaches) rfl fun _ => id
  -- W1 to W4
  obtain ⟨p1, t1, hp1, hp1', hrun1, h1⟩ := runs_edge h hs.cfg 18 hrel h0 rfl (.inr (by decide)) nofun rfl
    (by omega) (by omega) (by omega) (fun x hx hx' => hresponse x (by omega) (by omega)) (by omega)
  obtain ⟨p2, t2, hp2, hp2', hrun2, h2⟩ := runs_edge h hs.cfg 30 hrun1 h1 rfl (.inl nofun) nofun rfl
    (by omega) (by omega) (fun x hx hx' => hresponse x (by omega) (by omega))
    (fun x hx hx' => hackLow x (by omega) (by omega)) (by omega)
  obtain ⟨p3, t3, hp3, hp3', hrun3, h3⟩ := runs_edge h hs.cfg 110 hrun2 h2 rfl (.inl nofun) nofun rfl
    (by omega) (by omega) (fun x hx hx' => hackLow x (by omega) (by omega))
    (fun x hx hx' => hackHigh x (by omega) (by omega)) (by omega)
  obtain ⟨p4, t4, hp4, hp4', hrun4, h4⟩ := runs_edge h hs.cfg 190 hrun3 h3 rfl (.inl nofun) nofun rfl
    (by omega) (by omega) (fun x hx hx' => hackHigh x (by omega) (by omega))
    (fun x hx hx' => hfall x (by omega) (by omega)) (by omega)
  -- the transit
  obtain ⟨t5, hrun5, he5⟩ := runs_single h hrun4 h4 rfl nofun nofun trivial (by omega)
  exact ⟨p4 + 1, t5, by omega, by omega, hrun5,
    ((h4.done .transit).advance (op := .transit) rfl nofun nofun rfl).of_exchange he5⟩

/-! ### The whole exchange -/

/-- The reset pulse, from the cycle after the START to the release time (R166-R168). -/
theorem runs_pulse {c : Config} {f : Family} {s : State} (hs : s.Entered c f .reset 0)
    (h : s.AloneFor (1 + c.msCycles (c.resetLowMs f) + 1)) :
    ∃ t, runFor (1 + c.msCycles (c.resetLowMs f) + 1) s = .next t ∧ t.Entered c f .reset 3 := by
  obtain ⟨s1, hrun1, h1⟩ := runs_reset (op := .setLow) hs (h.mono (by rw [cyclesOf]; omega)) rfl rfl
  rw [Nat.add_assoc] at h
  have ha1 := h.runFor hrun1.reaches
  have hcost : cyclesOf .resetLow s1 = c.msCycles (c.resetLowMs f) := by rw [cyclesOf, h1.cfg, h1.fam]
  obtain ⟨s2, hrun2, h2⟩ := runs_reset (op := .resetLow) h1 (ha1.mono (by omega)) rfl rfl
  rw [hcost] at hrun2
  obtain ⟨s3, hrun3, h3⟩ := runs_reset (op := .setHigh) h2 (ha1.runFor hrun2.reaches) rfl rfl
  have hrun3 : runFor 1 s2 = .next s3 := hrun3.reaches
  have hrun1 : runFor 1 s = .next s1 := hrun1.reaches
  refine ⟨s3, ?_, h3⟩
  rw [Nat.add_assoc, runFor_add, hrun1, andThen_next, runFor_add, hrun2.reaches, andThen_next, hrun3]

/-- VALIDATE in its cycle: what the exchange reads when it has ended (R221). -/
theorem step_validate {f : Family} {frame : BitVec 40} {s : State} (h : s.Inv) (hp : s.hostIn.plain = true)
    (hs : s.Receiving f .validate 0 40 frame) : ∃ t, step s = .next t ∧ t.ended = true ∧ t.fam = f ∧ t.bitcnt = 40 ∧
      t.sr = frame ∧
      if chk (frameByte frame 0) (frameByte frame 1) (frameByte frame 2) (frameByte frame 3) = frameByte frame 4
      then t.result = .ok ∧
        t.data = ⟨frameByte frame 0, frameByte frame 1, frameByte frame 2, frameByte frame 3⟩
      else t.result = .checksumMismatch ∧ t.data = ⟨0, 0, 0, 0⟩ := by
  obtain ⟨t, hstep, ht⟩ := goesTo_validate h hp hs.op rfl
  obtain ⟨hin, hbitcnt, rfl⟩ := hs
  have hhidden : s.data = ⟨0, 0, 0, 0⟩ := h.dataHidden (by rw [hin.st]; nofun)
  refine ⟨t, hstep, ?_⟩
  obtain ⟨hfits, heq⟩ | ⟨hfails, heq⟩ := validate_cases s <;> rw [heq] at ht <;>
    obtain ⟨-, hst, -, -, -, hcount, hsr, hfam, -⟩ := fields_of_exchange ht
  · rw [if_pos hfits]
    exact ⟨by rw [State.ended, hst]; rfl, hfam.trans hin.fam, hcount.trans hbitcnt, hsr, (congrArg State.result ht :),
      (congrArg State.data ht :)⟩
  · rw [if_neg hfails]
    have hdata : t.data = s.data := (congrArg State.data ht :)
    exact ⟨by rw [State.ended, hst]; rfl, hfam.trans hin.fam, hcount.trans hbitcnt, hsr, (congrArg State.result ht :),
      hdata.trans hhidden⟩

/-- A block that accepts a START in VC, with the sensor's draws before it, comes to the release time with the sensor's
answer before it (R141, R168). -/
theorem runs_toRelease {s : State} {f : Family} {t : SensorTiming} {frame : BitVec 40} {n : Nat} (h : s.Inv)
    (hcfg : s.cfg = .vc) (hb : s.busy = false) (hin : s.hostIn = ⟨false, some (startWord f)⟩) (hp : s.plainFor n)
    (hdraws : s.envQ.take n = sensorDraws .vc f t frame n) (hn : 18003 ≤ n) :
    ∃ u, runFor 18003 s = .next u ∧ u.Entered .vc f .reset 3 ∧ u.Hears (answerLevel .vc t frame) (n - 18003) := by
  have hms : Config.vc.msCycles (Config.vc.resetLowMs f) = 18000 := by cases f <;> rfl
  have hears : s.Hears (fun i => if i < 18003 then true else answerLevel .vc t frame (i - 18003)) n :=
    ⟨h, hp, fun i hi => by rw [← List.getElem?_take_of_lt hi, hdraws, getElem?_sensorDraws _ _ _ _ hi, hms]⟩
  obtain ⟨v, hstep, hv⟩ := goesTo_start h hb hin
  have hentered : v.Entered .vc f .reset 0 := by
    obtain ⟨hcfg', hst, hix, hiter, hw, -, -, hfam, -, hd⟩ := fields_of_exchange hv
    exact ⟨hcfg'.trans hcfg, hfam, hst, hix, hiter, hw, hd.trans (h.dcnt_of_free hb)⟩
  have halone : s.AloneFor (1 + 18002) := hears.alone hn fun i hi => if_pos hi
  obtain ⟨u, hrun, hu⟩ := runs_pulse hentered (by rw [hms]; exact halone.runFor ((runFor_one s).trans hstep))
  rw [hms] at hrun
  have hreach : runFor (1 + 18002) s = .next u := by rw [runFor_add, runFor_one, hstep, andThen_next, hrun]
  refine ⟨u, hreach, hu, ?_⟩
  have hlater := hears.runFor hreach hn
  simp only [Nat.add_sub_cancel_left] at hlater
  simpa using hlater

/-- Settles O43: the sensor's edges drive the phases one after another, each wait matching at its edge or one cycle
late, so every sample falls within its bit; the budget T_max leaves room for all of them. -/
theorem vectorSensorFrameIsDelivered : Obligations.VectorSensorFrameIsDelivered := by
  intro s f frame h hcfg hb hin hp hdraws
  obtain ⟨hTmax, -⟩ := everyExchangeEndsWithinTmax
  rw [hTmax] at hp hdraws ⊢
  obtain ⟨u, hrun, hu, hears⟩ := runs_toRelease h hcfg hb hin hp hdraws (by omega)
  have hw : Follows (answerLevel .vc .vector frame) 0
      ([(true, 30), (false, 80), (true, 80)] ++ bitSegments (frameBits frame)) :=
    vector_segments frame ▸ follows_answerLevel .vector frame
  obtain ⟨p, v, hp190, hp194, hrun1, hv⟩ := runs_acknowledged hears hu (by omega) hw
  obtain ⟨-, -, -, hbits⟩ := hw
  have hlen : (frameBits frame).length = 40 := by simp [frameBits]
  obtain ⟨q, x, hq, hrun2, hx⟩ := runs_bits (count := 0) hears hu.cfg hrun1 hv (by rw [hlen]; rfl) (by omega) (by omega)
    (by rw [hlen]; omega) hbits
  rw [hlen] at hq
  rw [foldl_frameBits] at hx
  obtain ⟨t, hstep, ht⟩ := step_validate (hears.inv.runFor hrun2.reaches) (hears.hostIn hrun2.reaches (by omega)) hx
  refine ⟨18002 + (q + 2) + 1, t, by omega, ?_, ht⟩
  have hcycles : 1 + (18002 + (q + 2) + 1) = 18003 + ((q + 2) + 1) := by omega
  rw [hcycles, runFor_add, hrun, andThen_next, runFor_add, hrun2.reaches, andThen_next, runFor_one, hstep]

end Sys2Proof.Machine
end

section
/-! PROOFS. The host commands: a write of CMD without a reserved bit is a command's word, so the host's port does what
R240's cases say; O8 to O11. -/

namespace Sys2Proof.Machine

/-! ### The instructions -/

/-- Settles O8: NOP drives 0x00 and does nothing else, and its bit 1 stands in the word alone. -/
theorem nopChangesNoState : Obligations.NopChangesNoState := by
  intro f s
  refine ⟨?_, rfl⟩
  cases f <;> decide

/-- Settles O9: each command is its family's START, which waits for BUSY = 0. -/
theorem startClearsTheExchange : Obligations.StartClearsTheExchange := by
  intro s f i hi
  have hexec : exec i s = .next (driveData 0 (requestStart f s)) := by
    obtain ⟨rfl, rfl⟩ | ⟨rfl, rfl⟩ := hi <;> rfl
  have hword : encode i = .hostBus (startWord f) := by
    obtain ⟨rfl, rfl⟩ | ⟨rfl, rfl⟩ := hi <;> decide
  refine ⟨hword, fun hb => ?_, fun hb => ⟨driveData 0 (acceptStart f s), ?_, rfl, rfl, rfl, rfl⟩⟩
  · rw [hexec, requestStart_of_busy f hb]
    rfl
  · rw [hexec, requestStart_of_free f hb]

/-! ### A write of CMD -/

/-- A command byte without a reserved bit is its fields FAM and START (R92). -/
theorem cmdByte_fields {v : Byte} (h : cmdReserved v = 0) : cmdByte (v.getLsbD 1) (cmdStart v) = v := by
  have hbit (k : Nat) : v.extractLsb' k 1 = BitVec.ofBool (v.getLsbD k) := by
    apply BitVec.eq_of_getLsbD_eq
    intro j hj
    obtain rfl : j = 0 := by omega
    simp
  rw [cmdByte, cmdStart, ← hbit, ← hbit, ← h, cmdReserved,
    BitVec.extractLsb'_append_extractLsb'_eq_extractLsb' (by decide),
    BitVec.extractLsb'_append_extractLsb'_eq_extractLsb' (by decide)]
  exact BitVec.extractLsb'_eq_self

theorem decodeHostBus_of_encode {i : Instr} {w : BusWord} (h : encode i = .hostBus w) : decodeHostBus w = .instr i :=
  decode_hostBus_eq_some_iff.mp (h ▸ decodeOfEncode i)

/-- The port runs a write of CMD without a reserved bit as the register map's write (R63, R240). -/
theorem hostPort_of_cmdWrite {s : State} {v : Byte} (ha : s.hostIn.access = some (busWord true 0 v))
    (hrsv : cmdReserved v = 0) : hostPort s = .next (driveData 0 (memWrite 0 v s)) := by
  obtain ⟨fam, start, rfl⟩ : ∃ fam start, v = cmdByte fam start := ⟨_, _, (cmdByte_fields hrsv).symm⟩
  cases start with
  | false =>
    have hwrite : memWrite 0 (cmdByte fam false) s = s := writeCmd_of_noStart s (by cases fam <;> decide)
    rw [hostPort_of_instr ha (decodeHostBus_of_encode (i := .nop fam) rfl), hwrite]
    rfl
  | true =>
    cases fam with
    | false => exact hostPort_of_instr ha (decodeHostBus_of_encode (i := .readDht11) rfl)
    | true => exact hostPort_of_instr ha (decodeHostBus_of_encode (i := .readDht22) rfl)

theorem memWrite_of_ignored {s : State} {v : Byte} (hrsv : cmdReserved v = 0)
    (h : cmdStart v = false ∨ s.busy = true) : memWrite 0 v s = s := by
  have hcmd : memWrite 0 v s = writeCmd v s := if_pos rfl
  cases hstart : cmdStart v with
  | false => rw [hcmd, writeCmd_of_noStart s hstart]
  | true =>
    have hb : s.busy = true := by simpa [hstart] using h
    rw [hcmd, writeCmd_of_start s hrsv hstart, requestStart_of_busy _ hb]

theorem memWrite_of_accepted {s : State} {v : Byte} (hrsv : cmdReserved v = 0) (hstart : cmdStart v = true)
    (hb : s.busy = false) : memWrite 0 v s = acceptStart (cmdFamily v) s := by
  have hcmd : memWrite 0 v s = writeCmd v s := if_pos rfl
  rw [hcmd, writeCmd_of_start s hrsv hstart, requestStart_of_free _ hb]

/-- Any write in a reset cycle is discarded (R311). -/
theorem step_write_of_rst (s : State) {w : BusWord} (hw : busWe w = true) (q : List HostIn) :
    step { s with hostQ := ⟨true, some w⟩ :: q } = step { s with hostQ := ⟨true, none⟩ :: q } := by
  show (if busWe w = true then _ else _) = _
  rw [if_pos hw]
  rfl

/-- A write of CMD with a reserved bit stops the cycle (R245). -/
theorem step_of_reservedCommand (s : State) {w : BusWord} (hd : decodeHostBus w = .reservedCommand)
    (q : List HostIn) : step { s with hostQ := ⟨false, some w⟩ :: q } = .refused (.reservedCommand w) := by
  have hport : hostPort { s with hostQ := ⟨false, some w⟩ :: q } = .refused (.reservedCommand w) := by
    simp only [hostPort, State.hostIn, List.headD_cons, hd]
  rw [step_of_rst_low rfl, hport]
  rfl

theorem hostPort_of_cmdWrite_ignored {s : State} {v : Byte} (ha : s.hostIn.access = some (busWord true 0 v))
    (hrsv : cmdReserved v = 0) (h : cmdStart v = false ∨ s.busy = true) : hostPort s = .next (driveData 0 s) := by
  rw [hostPort_of_cmdWrite ha hrsv, memWrite_of_ignored hrsv h]

/-- A write of CMD that the register map ignores leaves the cycle as it is without an access (R240). -/
theorem step_of_cmdWrite_ignored {s : State} {v : Byte} (q : List HostIn) (hrsv : cmdReserved v = 0)
    (h : cmdStart v = false ∨ s.busy = true) :
    step { s with hostQ := ⟨false, some (busWord true 0 v)⟩ :: q } = step { s with hostQ := ⟨false, none⟩ :: q } := by
  rw [step_of_driveData (hostPort_of_cmdWrite_ignored rfl hrsv h), step_of_noAccess]

/-- A cycle that accepts a START runs no operation yet (R165, R241). -/
theorem step_of_cmdWrite_accepted {s : State} {v : Byte} (hin : s.hostIn = ⟨false, some (busWord true 0 v)⟩)
    (hrsv : cmdReserved v = 0) (hstart : cmdStart v = true) (hb : s.busy = false) :
    step s = .next (endCycle s (gtaNoRequest (driveData 0 (acceptStart (cmdFamily v) s)))) := by
  rw [step_of_rst_low (by rw [hin]), hostPort_of_cmdWrite (by rw [hin]) hrsv, memWrite_of_accepted hrsv hstart hb,
    andThen_next, engineAfterHost, hb]
  rfl

/-- Settles O11: reset discards the write, the decoder refuses a reserved bit, and else the port does the register map's
write, which ignores a NOP and a START while busy. -/
theorem cmdWritesAreClassified : Obligations.CmdWritesAreClassified := by
  intro s v q
  have hreset := step_write_of_rst s (busWe_busWord true 0 v) q
  refine ⟨hreset, fun hrsv => ⟨?_, ?_⟩, fun hrsv h => ⟨memWrite_of_ignored hrsv h, ?_⟩,
    fun hrsv hstart hb => ⟨memWrite_of_accepted hrsv hstart hb, ?_⟩⟩
  · exact writeCmd_of_reserved s hrsv
  · refine step_of_reservedCommand s (decodeHostBus_eq_reservedCommand (busWe_busWord ..) (busAddr_busWord ..) ?_) q
    rwa [Laws.TableRow.busData_busWord]
  · exact step_of_cmdWrite_ignored q hrsv h
  · refine ⟨_, step_of_cmdWrite_accepted rfl hrsv hstart hb, ?_⟩
    rw [gtaNoRequest_frame]
    exact ⟨rfl, rfl, rfl⟩

/-- Settles O10: a START while busy is one of the writes of CMD that the register map ignores. -/
theorem startWhileBusyIsLost : Obligations.StartWhileBusyIsLost := by
  intro s f q hb
  cases f with
  | dht11 => exact step_of_cmdWrite_ignored (v := 1) q (by decide) (.inr hb)
  | dht22 => exact step_of_cmdWrite_ignored (v := 3) q (by decide) (.inr hb)

end Sys2Proof.Machine
end

section
/-! PROOFS. The register reads: what each register says under the invariant, of a busy block and of one whose exchange
has ended; O15 to O20. -/

namespace Sys2Proof.Machine

section
variable {s : State}

theorem not_busy_of_ended (h : s.ended = true) : s.busy = false :=
  Bool.eq_false_iff.mpr fun hb => not_busy_and_ended s.st ⟨hb, h⟩

theorem st_of_ended (h : s.ended = true) : s.st = .done ∨ s.st = .failed := by
  unfold State.ended at h
  cases hst : s.st with
  | done => exact .inl rfl
  | failed => exact .inr rfl
  | idle | reset | ackWait1 | ackWait2 | bitLoop | validate => simp [hst, EngSt.ended] at h

/-! ### The position an exchange ended at -/

/-- After OK and ChecksumMismatch the last position is VALIDATE's (R271). -/
theorem State.Inv.position_of_validated (h : s.Inv) (he : s.ended = true)
    (hr : s.result = .ok ∨ s.result = .checksumMismatch) : s.ph = .validate ∧ s.stepIx = 0 := by
  have hlast : lastOpFits s.result (opAt s.ph s.stepIx) := h.lastOp he
  have hop : opAt s.ph s.stepIx = some .validate := by
    obtain hr | hr := hr <;> rwa [hr] at hlast
  simpa using opAt_cases hop

/-- After PinFault the last operation is one that uses the pin (R271). -/
theorem State.Inv.lastOp_of_pinFault (h : s.Inv) (he : s.ended = true) (hr : s.result = .pinFault) :
    ∃ op, opAt s.ph s.stepIx = some op ∧ op.usesPin = true := by
  have hlast := h.lastOp he
  rwa [hr] at hlast

/-- After Timeout it is a wait (R271). -/
theorem State.Inv.lastOp_of_timeout (h : s.Inv) (he : s.ended = true) (hr : s.result = .timeout) :
    ∃ op, opAt s.ph s.stepIx = some op ∧ op.isWait = true := by
  have hlast := h.lastOp he
  rwa [hr] at hlast

theorem usesPin_of_isWait {op : EngOp} (h : op.isWait = true) : op.usesPin = true := by
  cases op with
  | wait level => rfl
  | setLow | resetLow | setHigh | release | transit | sampleDelay | sample | validate => cases h

/-- R22's table: the operations, each with its position as POS shows it (R70). -/
def posTable : List (EngOp × Byte) :=
  [(.setLow, 0x01), (.resetLow, 0x09), (.setHigh, 0x11), (.release, 0x19), (.wait true, 0x21), (.wait false, 0x02),
    (.wait true, 0x0A), (.wait false, 0x12), (.transit, 0x03), (.wait true, 0x04), (.sampleDelay, 0x0C),
    (.sample, 0x14), (.wait false, 0x1C), (.validate, 0x05)]

theorem posByte_mem_posTable {op : EngOp} (h : opAt s.ph s.stepIx = some op) : (op, s.posByte) ∈ posTable := by
  unfold State.posByte
  rcases opAt_cases h with h | h | h | h | h | h | h | h | h | h | h | h | h | h <;>
    obtain ⟨hph, hix, rfl⟩ := h <;> rw [hph, hix] <;> decide

/-- Only VALIDATE has all forty bits before it, and it does not use the pin (R27). -/
theorem bits_of_usesPin {e : EngSt} {ix : BitVec 3} {op : EngOp} {n : Nat} (h : opAt e ix = some op)
    (hp : op.usesPin = true) (hbits : bitsInPhase e n) : n < 40 := by
  cases e with
  | idle | reset | ackWait1 | ackWait2 => exact lt_of_eq_of_lt hbits (by decide)
  | bitLoop => exact hbits
  | validate =>
    obtain ⟨-, rfl⟩ : ix = 0 ∧ op = .validate := by simpa using opAt_cases h
    cases hp
  | done | failed => exact hbits.elim

end

/-! ### The registers -/

theorem bitcntByte_toNat (s : State) : s.bitcntByte.toNat = s.bitcnt.toNat :=
  (BitVec.toNat_append (0 : BitVec 2) s.bitcnt).trans (by simp)

/-- Settles O15: STATUS is a function of the family, the outcome and the engine's state. -/
theorem rdStatusValue : Obligations.RdStatusValue := by
  intro s d
  refine ⟨by decide, rfl, by decide, not_busy_and_ended s.st, fun h => ⟨fun hb => ?_, fun he => ?_⟩⟩
  · have hok : s.result = .ok := h.outcome.mpr (st_ne_of_busy hb rfl)
    refine ⟨hok, ?_⟩
    rw [State.statusByte, hok, hb, Bool.eq_false_iff.mpr (not_ended_of_busy hb)]
    cases s.fam <;> decide
  · rw [State.statusByte, he, not_busy_of_ended he]
    cases s.fam with
    | dht11 => cases s.result <;> decide
    | dht22 => cases s.result <;> decide

/-- Settles O16: the invariant hides DATA in every state but DONE, and there it is the payload. -/
theorem rdDataValues : Obligations.RdDataValues := by
  intro s d
  refine ⟨⟨by decide, rfl⟩, ⟨by decide, rfl⟩, ⟨by decide, rfl⟩, ⟨by decide, rfl⟩, fun h hst => h.dataHidden ?_,
    fun h hst => (h.dataOk hst).1⟩
  obtain hb | hst := hst
  · exact st_ne_of_busy hb rfl
  · simp [hst]

/-- Settles O17: the invariant keeps PINERR at 0 beside any other outcome. -/
theorem rdPinerrValue : Obligations.RdPinerrValue := by
  intro s d
  exact ⟨by decide, rfl, fun h hcode => not_imp_comm.mp h.pinError hcode, rfl, rfl⟩

/-- Settles O18: STATE is the code of the engine's state. -/
theorem rdStateValue : Obligations.RdStateValue := by
  intro s d
  refine ⟨by decide, rfl, by decide, fun hb => ?_, fun h he => ?_⟩
  · unfold State.busy at hb
    unfold State.stateByte
    cases hst : s.st with
    | idle | done | failed => simp [hst, EngSt.busy] at hb
    | reset | ackWait1 | ackWait2 | bitLoop | validate => decide
  · unfold State.stateByte
    obtain hst | hst := st_of_ended he
    · have hok : s.result = .ok := h.outcome.mpr (by simp [hst])
      rw [hok, hst]
      decide
    · have herr : s.result ≠ .ok := fun hok => h.outcome.mp hok hst
      rw [if_neg herr, hst]
      decide

/-- Settles O19: POS is the last position, and R22's table has nine positions that use the pin, six of them waits. -/
theorem rdPosValue : Obligations.RdPosValue := by
  intro s d
  refine ⟨by decide, rfl, by decide, fun h he hr => ?_, fun h he hr => ?_, fun h he hr => ?_⟩
  · obtain ⟨hph, hix⟩ := h.position_of_validated he hr
    rw [State.posByte, hph, hix]
    decide
  · obtain ⟨op, hop, hpin⟩ := h.lastOp_of_pinFault he hr
    have hnine : ∀ x ∈ posTable, x.1.usesPin = true →
        x.2 ∈ ([0x01, 0x11, 0x21, 0x02, 0x0A, 0x12, 0x04, 0x14, 0x1C] : List Byte) := by decide
    exact hnine _ (posByte_mem_posTable hop) hpin
  · obtain ⟨op, hop, hwait⟩ := h.lastOp_of_timeout he hr
    have hsix : ∀ x ∈ posTable, x.1.isWait = true →
        x.2 ∈ ([0x21, 0x02, 0x0A, 0x12, 0x04, 0x1C] : List Byte) := by decide
    exact hsix _ (posByte_mem_posTable hop) hwait

/-- Settles O20: the last position tells the phase, and the phase the number of bits. -/
theorem rdBitcntValue : Obligations.RdBitcntValue := by
  intro s d
  refine ⟨by decide, rfl, fun h he hr => ?_, fun h he hr => ?_⟩
  · obtain ⟨hph, -⟩ := h.position_of_validated he hr
    have hbits : bitsInPhase s.ph s.bitcnt.toNat := h.bits
    rw [hph] at hbits
    exact BitVec.eq_of_toNat_eq ((bitcntByte_toNat s).trans hbits)
  · have hpin : ∃ op, opAt s.ph s.stepIx = some op ∧ op.usesPin = true := by
      obtain hr | hr := hr
      · exact h.lastOp_of_pinFault he hr
      · obtain ⟨op, hop, hwait⟩ := h.lastOp_of_timeout he hr
        exact ⟨op, hop, usesPin_of_isWait hwait⟩
    obtain ⟨op, hop, hpin⟩ := hpin
    rw [bitcntByte_toNat]
    exact bits_of_usesPin hop hpin h.bits

end Sys2Proof.Machine
end

section
/-! PROOFS. A run beside a host that only polls is the run beside no host, once the bus and the host's inputs are
erased; O57. -/

namespace Sys2Proof.Machine

/-- The host inputs of the coming n cycles stop nothing and ask for no START. -/
def State.pollsFor (s : State) (n : Nat) : Prop := ∀ h ∈ s.hostQ.take n, h.plain = true ∧ h.noStart = true

section
variable {s t : State} {n : Nat}

theorem State.pollsFor.hostIn (h : s.pollsFor (n + 1)) : s.hostIn.plain = true ∧ s.hostIn.noStart = true := by
  unfold State.hostIn
  cases hq : s.hostQ with
  | nil => exact ⟨rfl, rfl⟩
  | cons x q => exact h x (by simp [hq])

theorem State.pollsFor.step (h : s.pollsFor (n + 1)) (hstep : Machine.step s = .next t) : t.pollsFor n := by
  rw [step_frame_of_rst_low hstep (rst_of_plain h.hostIn.1)]
  intro x hx
  have hx : x ∈ (s.hostQ.drop 1).take n := hx
  rw [List.take_drop, Nat.add_comm] at hx
  exact h x (List.mem_of_mem_drop hx)

theorem not_noStart_of_startWord {h : HostIn} {f : Family} (ha : h.access = some (startWord f)) :
    h.noStart = false := by
  rw [HostIn.noStart, ha]
  cases f <;> decide

/-- A host that polls does no more at its port than drive the bus (R76, R259). -/
theorem hostPort_of_poll (hp : s.hostIn.plain = true) (hn : s.hostIn.noStart = true) :
    ∃ v, hostPort s = .next (driveData v s) := by
  obtain ⟨u, hu⟩ := hostPort_of_plain hp
  obtain ⟨v, rfl⟩ | ⟨f, ha, -⟩ := hostPort_start hu
  · exact ⟨v, hu⟩
  · simp [not_noStart_of_startWord ha] at hn

/-- A cycle beside a host that polls is the cycle beside no host. -/
theorem step_hostErased (hp : s.hostIn.plain = true) (hn : s.hostIn.noStart = true) :
    step s.hostErased = mapHostSide 0 [] (step s) := by
  obtain ⟨v, hv⟩ := hostPort_of_poll hp hn
  have hengine : engineAfterHost s.hostErased (driveData 0 s.hostErased) =
      mapHostSide 0 [] (engineAfterHost s (driveData v s)) :=
    engineAfterHost_withHostSide 0 [] s (driveData v s)
  have hquiet : hostPort s.hostErased = .next (driveData 0 s.hostErased) := rfl
  rw [step_of_rst_low (rst_of_plain hp), step_of_rst_low (s := s.hostErased) rfl, hv, hquiet]
  simp only [andThen_next]
  rw [hengine]
  cases engineAfterHost s (driveData v s) <;> rfl

theorem runFor_hostErased (h : s.pollsFor n) : runFor n s.hostErased = mapHostSide 0 [] (runFor n s) := by
  induction n generalizing s with
  | zero => rfl
  | succ n ih =>
    obtain ⟨hp, hn⟩ := h.hostIn
    rw [runFor, runFor, step_hostErased hp hn]
    cases hstep : step s with
    | next u => exact ih (h.step hstep)
    | fault _ | refused _ => rfl

end

/-- Settles O57: either host's run is, but for the host's side, the run beside no host. -/
theorem pollingDoesNotDisturbTheExchange : Obligations.PollingDoesNotDisturbTheExchange := by
  intro s t q q' n hq hq' hrun
  have hsame : mapHostSide 0 [] (runFor n { s with hostQ := q' }) = .next t.hostErased :=
    calc mapHostSide 0 [] (runFor n { s with hostQ := q' })
      _ = runFor n s.hostErased := (runFor_hostErased (s := { s with hostQ := q' }) hq').symm
      _ = mapHostSide 0 [] (runFor n { s with hostQ := q }) := runFor_hostErased (s := { s with hostQ := q }) hq
      _ = .next t.hostErased := by rw [hrun]; rfl
  obtain ⟨t', hrun', herased⟩ := andThen_eq_next hsame
  injection herased with herased
  exact ⟨t', hrun', herased⟩

end Sys2Proof.Machine
end

section
/-! PROOFS. How an exchange fails, and where the block stops: a step into FAILED, the issue cycle with a pin fault, the
block at rest in DONE and FAILED, and that a plain cycle always has a next state; O46, O47, O48 and O58. -/

namespace Sys2Proof.Machine

/-! ### Failure entry -/

section
variable {s t : State} {op : EngOp}

/-- A completed operation never leads to FAILED (R160). -/
theorem advance_st_ne_failed (hst : s.st ≠ .failed) : (advance s).st ≠ .failed := by
  unfold advance
  split
  case h_4 => obtain ⟨-, h⟩ | ⟨-, h⟩ := commitBit_cases s <;> rw [h] <;> nofun
  case h_5 => exact hst
  all_goals nofun

/-- The engine's reaction fails the exchange on an error response, or at the end of a wait's polling delay (R272,
R273). -/
theorem engineReact_failed (hst : s.st ≠ .failed) (h : (engineReact op s).st = .failed) :
    (s.gtaRsp.err = true ∧ engineReact op s = failExchange (.pinFault s.gtaRsp.code) s) ∨
    ((∃ level, op = .wait level) ∧ s.wph = true ∧ engineReact op s = failExchange .timeout s) := by
  cases hdone : s.gtaRsp.done with
  | false => exact absurd (engineReact_of_notDone hdone ▸ h) hst
  | true =>
    rw [engineReact_of_done hdone] at h ⊢
    cases op with
    | setLow | setHigh | sample =>
      dsimp only at h ⊢
      split at h
      · exact .inl ⟨‹_›, if_pos ‹_›⟩
      · exact absurd h (advance_st_ne_failed hst)
    | wait level =>
      dsimp only at h ⊢
      split at h
      · rename_i hw
        rw [if_pos hw]
        obtain ⟨-, heq⟩ | ⟨-, heq⟩ := endOfPoll_cases s
        · rw [heq] at h; exact absurd h hst
        · exact .inr ⟨⟨level, rfl⟩, hw, heq⟩
      · rename_i hw
        rw [if_neg hw]
        obtain ⟨herr, heq⟩ | ⟨-, -, heq⟩ | ⟨-, -, heq⟩ := afterSample_cases s
        · exact .inl ⟨herr, heq⟩
        · rw [heq] at h; exact absurd h (advance_st_ne_failed hst)
        · rw [heq] at h; exact absurd h hst
    | resetLow | release | sampleDelay => exact absurd h (advance_st_ne_failed hst)
    | transit | validate => exact absurd h hst

/-- Without a request the GTA answers no error (R128, R132). -/
theorem gtaNoRequest_noError (s : State) : (gtaNoRequest s).gtaRsp.err = false := by
  obtain ⟨-, h⟩ | ⟨-, h⟩ | ⟨-, h⟩ := gtaNoRequest_cases s <;> rw [h] <;> rfl

theorem startDelay_noError (g : GtaOp) (len : Nat) (s : State) : (startDelay g len s).gtaRsp.err = false := by
  obtain ⟨-, h⟩ | ⟨-, h⟩ := startDelay_cases g len s <;> rw [h] <;> rfl

/-- A primitive that answers an error carries the code drawn in its cycle and has written nothing else (R124-R127). -/
theorem exec_of_error {i : Instr} (hi : i.isPrimitive = true) (h : exec i s = .next t) (herr : t.gtaRsp.err = true) :
    t = respond (.error s.draw.pinFaultCode) s := by
  have write (low : Bool) (herr : (pinWrite low s).gtaRsp.err = true) :
      pinWrite low s = respond (.error s.draw.pinFaultCode) s := by
    obtain ⟨-, heq⟩ | ⟨-, heq⟩ := pinWrite_cases low s
    · exact heq
    · rw [heq] at herr; cases herr
  have query (level : Bool) (herr : (pinQuery level s).gtaRsp.err = true) :
      pinQuery level s = respond (.error s.draw.pinFaultCode) s := by
    obtain ⟨-, heq⟩ | ⟨-, heq⟩ := pinQuery_cases level s
    · exact heq
    · rw [heq] at herr; cases herr
  cases i with
  | setLow | setHigh => cases h; exact write _ herr
  | isLow | isHigh => cases h; exact query _ herr
  | delayUs n =>
    simp only [exec, execDelayUs] at h
    split at h <;> cases h
    simp [startDelay_noError] at herr
  | delayMs n =>
    simp only [exec, execDelayMs] at h
    split at h <;> cases h
    simp [startDelay_noError] at herr
  | nop _ | readDht11 | readDht22 | rdStatus _ | rdData0 _ | rdData1 _ | rdData2 _ | rdData3 _ | rdPinerr _
  | rdState _ | rdPos _ | rdBitcnt _ => cases hi

/-- An engine's cycle that ends in FAILED is failure entry and, beside it, the GTA's counter and ports; the code of a
pin fault is the one drawn in the cycle (R276). -/
theorem runOp_failed (hop : s.op = some op) (hrun : runOp op s = .next t) (ht : t.st = .failed) : ∃ f q r d g,
    (f = .pinFault s.draw.pinFaultCode ∨ f = .timeout ∨ f = .checksumMismatch) ∧
    t = failExchange f { s with gtaReq := q, gtaRsp := r, dcnt := d, gop := g } := by
  have hst : s.st ≠ .failed := st_ne_of_busy (busy_of_op hop) rfl
  have hgta : (gtaNoRequest s).st ≠ .failed := by rw [gtaNoRequest_st]; exact hst
  obtain ⟨-, rfl⟩ | ⟨-, rfl⟩ | ⟨-, -, -, rfl⟩ | ⟨-, i, u, hi, hu, rfl⟩ := runOp_cases (busy_of_op hop) hop hrun
  · exact absurd ht (advance_st_ne_failed hgta)
  · obtain ⟨-, heq⟩ | ⟨-, heq⟩ := validate_cases (gtaNoRequest s)
    · rw [heq] at ht; cases ht
    · exact ⟨_, _, _, _, _, .inr (.inr rfl), heq.trans (congrArg _ (gtaNoRequest_frame s))⟩
  · obtain ⟨herr, -⟩ | ⟨-, -, heq⟩ := engineReact_failed hgta ht
    · simp [gtaNoRequest_noError] at herr
    · exact ⟨_, _, _, _, _, .inr (.inl rfl), heq.trans (congrArg _ (gtaNoRequest_frame s))⟩
  · have hprim := decodeGtaReq_primitive (decodeGtaReq_requestWord hi)
    have hframe := exec_primitive_frame hprim hu
    have hust : u.st ≠ .failed := by rw [hframe]; exact hst
    obtain ⟨herr, heq⟩ | ⟨⟨level, rfl⟩, hw, heq⟩ := engineReact_failed hust ht
    · obtain rfl := exec_of_error hprim hu herr
      exact ⟨_, _, _, _, _, .inl rfl, heq⟩
    · have hw : s.wph = true := by rw [hframe] at hw; exact hw
      have hdelay : delayOf (.wait level) s = some (.delayUs, s.cfg.usCycles s.cfg.pollUs) := if_pos hw
      obtain rfl := exec_of_delay (x := presentRequest (requestWord i) s) hi hdelay rfl hu
      exact ⟨_, _, _, _, _, .inr (.inl rfl), heq.trans (congrArg _ (startDelay_frame _ _ _))⟩

end

/-- Settles O46: a busy step into FAILED is an engine's cycle that ends in failure entry, and each of the three failures
leaves the rest of the exchange. -/
theorem failureEntryKeepsTheRest : Obligations.FailureEntryKeepsTheRest := by
  intro s t hstep hb ht
  obtain ⟨-, v, rfl⟩ | ⟨-, -, v, op, u, hop, hrun, rfl⟩ | ⟨-, hfree, -⟩ := step_cases hstep
  · cases ht
  · obtain ⟨f, q, r, d, g, hf, rfl⟩ := runOp_failed (s := driveData v s) hop hrun ht
    have hcode : f.result ≠ .ok ∧ (f.result = .pinFault → f.pinerr s.pinerr = s.draw.pinFaultCode) ∧
        (f.result ≠ .pinFault → f.pinerr s.pinerr = s.pinerr) := by
      obtain rfl | rfl | rfl := hf
      · exact ⟨nofun, fun _ => rfl, fun h => absurd rfl h⟩
      · exact ⟨nofun, nofun, fun _ => rfl⟩
      · exact ⟨nofun, nofun, fun _ => rfl⟩
    obtain ⟨hresult, hpin, hother⟩ := hcode
    exact ⟨hresult, hpin, hother, rfl, rfl, rfl, rfl, rfl, rfl, rfl, rfl, rfl, rfl⟩
  · simp [hb] at hfree

/-- Settles O47: the engine fails the exchange on the response of the same cycle, and a host access beside it only
drives the bus. -/
theorem pinFaultFailsTheExchange : Obligations.PinFaultFailsTheExchange := by
  intro s op hp hb hop hpin hd hw hf
  obtain ⟨v, hstep⟩ := step_of_plain_busy hp hb
  rw [engineCycle_of_pinFault (s := driveData v s) hop hd hpin hw hf, andThen_next] at hstep
  exact ⟨_, hstep, rfl, rfl, rfl, rfl, rfl, rfl⟩

/-! ### At rest -/

/-- A plain cycle with the engine at rest: the host's port, then the GTA without a request (R186). -/
theorem step_of_plain_free {s u : State} (hp : s.hostIn.plain = true) (hb : s.busy = false)
    (hu : hostPort s = .next u) : step s = .next (endCycle s (gtaNoRequest u)) := by
  rw [step_of_rst_low (rst_of_plain hp), hu, andThen_next, engineAfterHost, if_neg (by simp [hb]), andThen_next]

/-- Settles O48: the host only drives the bus, the engine has no cycle, and under the invariant no delay runs, so the
GTA is idle. -/
theorem endedBlockIsStable : Obligations.EndedBlockIsStable := by
  intro s h he hp hn
  have hb := not_busy_of_ended he
  have hd := h.dcnt_of_free hb
  obtain ⟨v, hv⟩ := hostPort_of_poll hp hn
  refine ⟨v, ?_⟩
  rw [step_of_plain_free hp hb hv, (h.driveData v).gtaNoRequest_eq hd, (h.driveData v).gtaRest_eq hd, endCycle,
    if_neg (by simpa [State.busy] using hb)]
  rfl

/-! ### What stops the block -/

/-- However the cycle of an operation goes, it goes to a next state. -/
theorem CycleOutcome.goesTo {op : EngOp} {s : State} (h : CycleOutcome op s) : ∃ x, GoesTo s x := by
  cases h with
  | delayGoesOn _ _ hgo | pollEnds _ _ _ hgo | noMatch _ _ _ _ hgo | pinFault _ _ _ _ hgo | validates _ hgo
  | completes _ _ hgo => exact ⟨_, hgo⟩

/-- Settles O58: at rest the host's port is all that could stop the cycle; busy, the invariant gives the position an
operation, and every operation's cycle has a next state. -/
theorem onlyReservedWordsStopTheBlock : Obligations.OnlyReservedWordsStopTheBlock := by
  intro s h hp
  cases hb : s.busy with
  | false =>
    obtain ⟨u, hu⟩ := hostPort_of_plain hp
    exact ⟨_, step_of_plain_free hp hb hu⟩
  | true =>
    obtain ⟨op, hop⟩ := Option.ne_none_iff_exists'.mp (h.position hb)
    obtain ⟨x, t, hstep, -⟩ := (cycle_cases h hp hop).goesTo
    exact ⟨t, hstep⟩

end Sys2Proof.Machine
end

section
/-! PROOFS. A cycle with `rst` = 1: what it leaves of the block, and that nothing else counts; O52 and O51. -/

namespace Sys2Proof.Machine

section
variable {s s' : State}

/-! ### The reset cycle -/

/-- A reset cycle without an access is the reset of the block, with nothing on the bus (R310). -/
theorem step_of_quiet_rst (h : s.hostIn = ⟨true, none⟩) : step s = .next (consumeInputs (resetBlock s)) := by
  simp [step, clockCycle, resetCycle, h]

/-- A reset cycle that reads no reserved address is the reset of the block, whatever stands on the bus (R310, R311). -/
theorem step_of_rst (h : s.hostIn.rst = true)
    (hread : ∀ w, s.hostIn.access = some w → busWe w = false → decodeHostBus w ≠ .reservedAddress) :
    ∃ v, step s = .next (driveData v (consumeInputs (resetBlock s))) := by
  have hcycle : step s = resetCycle s := if_pos h
  rw [hcycle]
  unfold resetCycle
  split
  · exact ⟨0, rfl⟩
  · rename_i w hw
    split
    · exact ⟨0, rfl⟩
    · rename_i hwe
      rw [if_neg (hread w hw (Bool.eq_false_iff.mpr hwe))]
      exact ⟨memRead (busAddr w) s, rfl⟩

/-- Of the state a reset looks at the parameters, the free draw and the inputs still waiting (R310, R312). -/
theorem consumeInputs_resetBlock_congr (hcfg : s.cfg = s'.cfg) (hhost : s.hostQ = s'.hostQ)
    (henv : s.envQ.drop 1 = s'.envQ.drop 1) (hix : s.drawIx = s'.drawIx) :
    consumeInputs (resetBlock s) = consumeInputs (resetBlock s') := by
  simp only [consumeInputs, resetBlock, freeSync, hcfg, hhost, henv, hix]

/-- Every register of a block at R41's values reads 0x00 (R64); none shows a parameter or the synchroniser, so
`State.reset` stands for all such blocks. -/
theorem memRead_resetWith (a : BitVec 4) (cfg : Config) (sync : List Bool) :
    memRead a (.resetWith cfg sync) = 0 := by
  have hreset : ∀ a : BitVec 4, memRead a .reset = 0 := by decide
  exact hreset a

theorem freeSync_length (s : State) : (freeSync s).length = s.cfg.syncStages := by simp [freeSync]

end

/-! ### The obligations -/

/-- Settles O52: a write is discarded, a read drives the bus beside the reset, and the reset looks at none of the
engine's, the GTA's and the line's state. -/
theorem resetWinsOverEverything : Obligations.ResetWinsOverEverything := by
  refine ⟨fun s w q hw => step_write_of_rst s hw q, fun s w q hw hd => ?_, fun s s' hin hhost henv hix hcfg => ?_⟩
  · rw [step_read_of_rst hw hd, step_of_quiet_rst rfl, andThen_next]
    exact ⟨_, rfl, rfl⟩
  · have hin' : s'.hostIn = ⟨true, none⟩ := by rwa [State.hostIn, ← hhost]
    rw [step_of_quiet_rst hin, step_of_quiet_rst hin', consumeInputs_resetBlock_congr hcfg hhost henv hix]

/-- Settles O51: the reset block is written out in `State.resetWith`, and the end of the cycle and the read change
nothing of it but the inputs and the bus. -/
theorem resetPutsEveryElementAtItsValue : Obligations.ResetPutsEveryElementAtItsValue := by
  intro s hrst hread
  obtain ⟨v, hstep⟩ := step_of_rst hrst hread
  exact ⟨_, hstep, rfl, rfl, rfl, rfl, rfl, rfl, rfl, rfl, rfl, rfl, rfl, rfl, rfl, freeSync_length s, rfl, rfl, rfl,
    fun a => memRead_resetWith a s.cfg (freeSync s)⟩

end Sys2Proof.Machine
end

section
/-! PROOFS. The pad after a failure, read off the position the exchange failed at; O50. -/

namespace Sys2Proof.Machine

section
variable {s : State}

/-- POS 0x11 is the position of `SET_HIGH` (R22, R70). -/
theorem position_of_posByte_setHigh (hpos : s.posByte = 0x11) : s.ph = .reset ∧ s.stepIx = 2 := by
  have hix : s.stepIx = 2 := by
    rw [← posByte_stepIx, hpos]
    decide
  have hcode : s.ph.code = 1 := by
    have hfield : s.posByte.extractLsb' 0 3 = s.ph.code := BitVec.extractLsb'_append_eq_right
    rw [← hfield, hpos]
    decide
  refine ⟨?_, hix⟩
  cases hph : s.ph with
  | reset => rfl
  | idle | ackWait1 | ackWait2 | bitLoop | validate | done | failed =>
    rw [hph] at hcode
    exact absurd hcode (by decide)

/-- No exchange fails at `RESET`'s delay: a delay issues no pin primitive and has no timeout (R131, R271). -/
theorem State.Inv.not_failed_at_resetLow (h : s.Inv) (he : s.ended = true) (hph : s.ph = .reset) : s.stepIx ≠ 1 := by
  intro hix
  have hop : opAt s.ph s.stepIx = some .resetLow := by
    rw [hph, hix]
    rfl
  have hlast := h.lastOp he
  rw [hop] at hlast
  cases hr : s.result with
  | ok | checksumMismatch => simp [hr, lastOpFits] at hlast
  | pinFault | timeout => simp [hr, lastOpFits, EngOp.usesPin, EngOp.isWait] at hlast

end

/-- Settles O50: the invariant places a low pad within RESET up to `SET_HIGH`, and keeps it low at `SET_HIGH`. -/
theorem failedPadIsLowOnlyAfterAPadFault : Obligations.FailedPadIsLowOnlyAfterAPadFault := by
  intro s h hst
  refine ⟨fun hlow => ?_, fun hpos => ?_⟩
  · obtain ⟨hph, hle⟩ := h.padLow hlow
    have hne : s.stepIx ≠ 1 := h.not_failed_at_resetLow (by simp [State.ended, hst, EngSt.ended]) hph
    have htwo : ∀ ix : BitVec 3, ix.toNat ≤ 2 → ix ≠ 1 → ix = 0 ∨ ix = 2 := by decide
    rw [State.posByte, hph]
    obtain hix | hix := htwo _ hle hne <;> rw [hix] <;> decide
  · obtain ⟨hph, hix⟩ := position_of_posByte_setHigh hpos
    exact h.padHeld hph (.inr (by rw [hix]; rfl))

end Sys2Proof.Machine
end

section
/-! PROOFS. The platform conditions on the sensor's durations, and the bounds they come to in VC; O60. -/

namespace Sys2Proof.Machine

/-- The later the wait before it matched, the later the sample observes the line (R324). -/
theorem bitSamplePoint_mono (c : Config) {δ δ' : Nat} (h : δ ≤ δ') : bitSamplePoint c δ ≤ bitSamplePoint c δ' :=
  Nat.add_le_add_left h _

/-- The window holds the sample of every wait, since it holds the first and the last (R324). -/
theorem SensorTiming.SampleWindow.sample {t : SensorTiming} {c : Config} {δ : Nat} (h : t.SampleWindow c)
    (hδ : δ ≤ c.pollUs.toNat * c.cycPerUs) : t.zeroHigh * c.cycPerUs ≤ bitSamplePoint c δ ∧
      bitSamplePoint c δ < (t.zeroHigh + t.bitLow) * c.cycPerUs ∧ bitSamplePoint c δ < t.oneHigh * c.cycPerUs := by
  obtain ⟨hpastZero, hinOne, hbeforeNext, -⟩ := h
  have hfirst := bitSamplePoint_mono c (Nat.zero_le δ)
  have hlast := bitSamplePoint_mono c hδ
  exact ⟨hpastZero.trans hfirst, hlast.trans_lt hbeforeNext, hlast.trans_lt hinOne⟩

/-- The vector sensor with another T_H0, in VC: the samples lie at 36 and 37 (R324). -/
theorem sampleWindow_vc_zeroHigh (h : Nat) :
    ({ SensorTiming.vector with zeroHigh := h } : SensorTiming).SampleWindow .vc ↔ h ≤ 36 := by
  have hwindow : ({ SensorTiming.vector with zeroHigh := h } : SensorTiming).SampleWindow .vc ↔
      h * 1 ≤ 36 ∧ 37 < 70 * 1 ∧ 37 < (h + 50) * 1 ∧ 2 + 1 < 50 * 1 := Iff.rfl
  rw [hwindow]
  omega

/-- VC with another `RELEASE_US`: the first sample observes the line as it was two cycles before the release delay ended
(R322). -/
theorem phaseAligned_vc_release (r : BitVec 16) :
    SensorTiming.vector.PhaseAligned { Config.vc with releaseUs11 := r } .dht11 ↔ r.toNat ≤ 31 := by
  have hfirst : firstObserved { Config.vc with releaseUs11 := r } .dht11 = r.toNat - 2 := by
    simp [firstObserved, Config.releaseUs, Config.vc]
  have haligned : SensorTiming.vector.PhaseAligned { Config.vc with releaseUs11 := r } .dht11 ↔
      ((0 : Int) ≤ r.toNat - 2 → (r.toNat - 2 : Int) < 30) ∧ ((r.toNat - 2 : Int) < 0 → 1 < 30) := by
    rw [SensorTiming.PhaseAligned, hfirst]
    rfl
  rw [haligned]
  omega

/-- VC with another N: an iteration takes two cycles, and the longest segment 80 (R323). -/
theorem budgetSuffices_vc_iters (n : Nat) :
    SensorTiming.vector.BudgetSuffices { Config.vc with timeoutIters := n } ↔ 41 ≤ n := by
  have hbudget : SensorTiming.vector.BudgetSuffices { Config.vc with timeoutIters := n } ↔ (80 + 1) * 1 < n * 2 :=
    Iff.rfl
  rw [hbudget]
  omega

/-- Settles O60: the window holds every sample between its first and its last, and in VC each condition is a bound on
the one duration or parameter that is left open. -/
theorem platformConditionsBoundTheSamples : Obligations.PlatformConditionsBoundTheSamples := by
  refine ⟨fun c t δ h hδ => h.sample hδ, fun f => ?_, fun h _ hle => ?_, phaseAligned_vc_release,
    budgetSuffices_vc_iters⟩
  · cases f with
    | dht11 | dht22 => decide
  · exact (sampleWindow_vc_zeroHigh h).mpr (by omega)

end Sys2Proof.Machine
end
